-- ==== Sys2Proof/Word.lean ====
section
/-! DEFINITION. The word types of EA-CORE (spec R15, R16): every value of the block is unsigned. -/

namespace Sys2Proof

/-- One byte of the operation stream (R74). -/
abbrev Byte := BitVec 8

/-- A `u32`: a status-port register, an operation word, a period (R47, R98, R93). -/
abbrev Word := BitVec 32

/-- A `u64` clock value in microseconds (R15, R30). -/
abbrev Time := BitVec 64

end Sys2Proof
end

