-- ==== Sys2Proof/Config.lean ====
section
/-! DEFINITION. The parameters of the block (spec R13, R18, R93, R95): what a configuration is. Which configurations are
admitted (R14) and the defaults (R13, R96) are in Machine/Params.lean. -/

namespace Sys2Proof

/-- Which input edges raise the edge interrupt (R18, R56); the spec leaves the choice OPEN (D9). -/
inductive EdgeSel where
  | rising
  | falling
  | both
  deriving DecidableEq, Repr, Inhabited

/-- A WaveformSpec in normal form (R93): a disabled one has no period. -/
inductive WaveformSpec where
  | disabled
  | enabled (periodUs : Word)
  deriving DecidableEq, Repr, Inhabited

/-- The parameters of R13, one field each. They are not state (R202): a different configuration is a different block. -/
structure Config where
  /-- `N`, the number of cyclic modes. -/
  modes : Nat
  /-- `C`, the Event Channel's capacity. -/
  capacity : Nat
  /-- `SETTLE_WINDOW_US`. -/
  settleWindowUs : Word
  /-- `PULSE_DURATION_US`. -/
  pulseDurationUs : Word
  /-- `MODE_TABLE` (R95). -/
  modeTable : List WaveformSpec
  /-- `MODE_RESET`. -/
  modeReset : Nat
  /-- `CLOCK_RES_US`. -/
  clockResUs : Word
  /-- `EDGE_SEL` (R18). -/
  edgeSel : EdgeSel
  /-- `IRQ_COALESCE` (R123). -/
  irqCoalesce : Bool
  /-- `PIN_ID`. -/
  pinId : BitVec 8
  deriving DecidableEq, Repr

/-- FREE VALUE (log entry 12): the entry a lookup of `MODE_TABLE` outside its entries would give. R95 says the lookup is
total because `mode < N` always; in states that break this, which no run of an admitted configuration reaches, nothing
constrains the entry. -/
opaque Config.specBeyondTable : Nat → WaveformSpec

end Sys2Proof
end

