-- ==== Sys2Proof/Machine/Params.lean ====
section
/-! DEFINITION. Which configurations are admitted (spec R14), the defaults (R13, R96), the WaveformSpec encoding (R94), the
mode-table lookup (R95) and edge selection (R18), and the clock limit (R200). -/

namespace Sys2Proof

/-- `CLOCK_LIMIT = 2^64 - 2^33` (R200). -/
def clockLimit : Nat := 2 ^ 64 - 2 ^ 33

/-! ## WaveformSpec (R93, R94) -/

/-- The field `enabled` (R93). -/
def WaveformSpec.isEnabled : WaveformSpec → Bool
  | .disabled => false
  | .enabled _ => true

/-- The field `period_us` (R93): written 0 for a disabled spec. -/
def WaveformSpec.periodUs : WaveformSpec → Word
  | .disabled => 0
  | .enabled p => p

/-- The packed encoding, one u32 (R94). -/
def WaveformSpec.pack : WaveformSpec → Word
  | .disabled => 0
  | .enabled p => p

/-- The spec a u32 encodes (R94): `enabled = (w ≠ 0)`, `period_us = w`. -/
def WaveformSpec.unpack (w : Word) : WaveformSpec :=
  if w = 0 then .disabled else .enabled w

/-! ## Parameter well-formedness (R14) -/

/-- R14 for one mode-table entry: an enabled one has `period_us > CLOCK_RES_US`. -/
def WaveformSpec.admittedFor (clockRes : Word) : WaveformSpec → Bool
  | .disabled => true
  | .enabled p => clockRes.toNat < p.toNat

/-- R14: the configurations the spec gives a meaning. -/
def Config.admitted (c : Config) : Bool :=
  decide (1 ≤ c.modes) && decide (c.modes ≤ 256)
    && decide (1 ≤ c.capacity) && decide (c.capacity ≤ 65535)
    && decide (1 ≤ c.clockResUs.toNat)
    && decide (c.modeReset < c.modes)
    && decide (c.modeTable.length = c.modes)
    && c.modeTable.all (WaveformSpec.admittedFor c.clockResUs)

/-! ## Lookup and edge selection -/

/-- `spec_of(m) = MODE_TABLE[m]` (R95); outside the table a free value (log entry 12). -/
def Config.specOf (c : Config) (m : Nat) : WaveformSpec :=
  match c.modeTable[m]? with
  | some spec => spec
  | none => Config.specBeyondTable m

/-- R18, R197: does a change of the input level from `old` to `new` match `EDGE_SEL`? -/
def EdgeSel.configures (sel : EdgeSel) (old new : Bool) : Bool :=
  match sel with
  | .rising => !old && new
  | .falling => old && !new
  | .both => (!old && new) || (old && !new)

/-- The port encoding of EDGE_SEL (R56). -/
def EdgeSel.code : EdgeSel → BitVec 2
  | .rising => 0
  | .falling => 1
  | .both => 2

/-! ## Defaults (R13, R96) -/

/-- The default MODE_TABLE (R96): 1 Hz, 2 Hz, 4 Hz, off. -/
def defaultModeTable : List WaveformSpec :=
  [.enabled 500000, .enabled 250000, .enabled 125000, .disabled]

/-- The defaults of R13 for a given `EDGE_SEL`, which has none (R18). -/
def Config.default (sel : EdgeSel) : Config where
  modes := 4
  capacity := 10
  settleWindowUs := 50000
  pulseDurationUs := 100000
  modeTable := defaultModeTable
  modeReset := 3
  clockResUs := 1
  edgeSel := sel
  irqCoalesce := false
  pinId := 0

end Sys2Proof
end

