-- ==== Sys2Proof/Machine/State.lean ====
section
/-! DEFINITION. The state of the block (spec R25 to R46), its records, the reasons a step can stop, and the state after
reset. -/

namespace Sys2Proof.Machine

/-! ## Data records (R90, R91) -/

/-- RawEdgeEvent (R90). -/
structure RawEdgeEvent where
  pin : BitVec 8
  level : Bool
  tsUs : Time
  deriving DecidableEq, Repr

/-- AcceptedEvent (R91): one Event Channel entry. -/
structure AcceptedEvent where
  tsUs : Time
  level : Bool
  deriving DecidableEq, Repr

/-! ## Enumerations -/

/-- The edge outcomes of R217, held in `last_outcome` (R59). -/
inductive EdgeOutcome where
  | none
  | accepted
  | rejected
  | dropped
  deriving DecidableEq, Repr

/-- The TASK agent's position (R37). -/
inductive TaskPos where
  | pop
  | advance
  | pulseOn
  | pulseHold
  | reconf
  deriving DecidableEq, Repr

/-- The two digital outputs, as `Out` records name them (R43). -/
inductive Output where
  | led
  | buz
  deriving DecidableEq, Repr

/-- The error reports of R217. -/
inductive ErrReport where
  | reconfFail
  deriving DecidableEq, Repr

/-- The port responses of R217. -/
inductive Resp where
  | ok
  | err
  deriving DecidableEq, Repr

/-- The record kinds of the history (R43). -/
inductive Record where
  | edge (raw : RawEdgeEvent) (outcome : EdgeOutcome)
  | pop (ev : AcceptedEvent)
  | out (output : Output) (value : Bool) (t : Time)
  | reconf (mode : BitVec 8) (spec : WaveformSpec) (ok : Bool)
  | errReport (code : ErrReport)
  | reset (t : Time)
  | read (offset : BitVec 11) (value : Word) (resp : Resp)
  deriving DecidableEq, Repr

/-! ## The state (R32) -/

/-- The state of the block, field by field as in R32, with the configuration it was built for (R13, R202; no operation
writes it, log entry 4) and the operation words of the interleaving still to be taken (R24, R74; the model's own field,
log entry 1). -/
structure State where
  /-- The parameters (R13): constant. -/
  cfg : Config
  /-- The operation words not yet taken, as the byte stream of R74. -/
  stream : List Byte
  /-- `in_level` (R27). -/
  inLevel : Bool
  /-- `led` (R28). -/
  led : Bool
  /-- `buz` (R29). -/
  buz : Bool
  /-- `now` (R30). -/
  now : Time
  /-- `irq_pending` (R33). -/
  irqPending : Nat
  /-- `deb_valid` (R34). -/
  debValid : Bool
  /-- `deb_last` (R34). -/
  debLast : Time
  /-- `fifo` (R35): the head is the oldest entry. -/
  fifo : List AcceptedEvent
  /-- `drop_count` (R36). -/
  dropCount : Word
  /-- `last_outcome` (R59). -/
  lastOutcome : EdgeOutcome
  /-- `mode` (R38). -/
  mode : BitVec 8
  /-- `task` (R37). -/
  task : TaskPos
  /-- `ctl_valid` and `ctl_event` (R39): `none` is `ctl_valid = 0`, in which `ctl_event` has no value (log entry 7). -/
  ctl : Option AcceptedEvent
  /-- `pulse_t0` (R41). -/
  pulseT0 : Time
  /-- `wg_en` (R40). -/
  wgEn : Bool
  /-- `wg_period` (R40). -/
  wgPeriod : Word
  /-- `wg_due` (R40). -/
  wgDue : Time
  /-- `wg_phase` (R40). -/
  wgPhase : Bool
  /-- `reconf_err` (R42). -/
  reconfErr : Bool
  /-- `hist` (R43): oldest record first. -/
  hist : List Record
  deriving DecidableEq, Repr

/-! ## Why a step can stop -/

/-- The block has no trap and no fault (R215): there is no reason, so no step ever faults (log entry 8). -/
inductive Fault where
  deriving DecidableEq, Repr

/-- The refusals of R19: verdicts of the model on a trace or a configuration, never events of the block. Each is the
spec's own, so none makes the model stop where the spec goes on. -/
inductive Refusal where
  /-- An operation rejected by name in `exec` because it has no meaning yet. Raised by no arm of this model. Safe. -/
  | notModelled (mnemonic : String)
  /-- `INVALID_WORD` (R106, R112, R74): raised by `step` when the bytes at the head of the stream are no operation. Safe. -/
  | invalidWord (bytes : List Byte)
  /-- `CLOCK_OVERFLOW(s.now, delta)` (R200): raised by CLK_ADV above the clock limit. Safe. -/
  | clockOverflow (now : Time) (delta : BitVec 24)
  /-- `BAD_CONFIG` (R14, R19): raised by `step` in a configuration that is not admitted. Safe. -/
  | badConfig
  deriving DecidableEq, Repr

/-! ## The state after reset -/

/-- The power-on state (R246, R247) of the default configuration (R13). DESIGN CHOICE: `EDGE_SEL`, which has no default,
is RISING (log entry 5); the draws `in_level` and `now` are 0 (log entry 6); no operation is offered yet (log entry 1). -/
def State.reset : State where
  cfg := Config.default .rising
  stream := []
  inLevel := false
  led := false
  buz := false
  now := 0
  irqPending := 0
  debValid := false
  debLast := 0
  fifo := []
  dropCount := 0
  lastOutcome := .none
  mode := 3
  task := .pop
  ctl := none
  pulseT0 := 0
  wgEn := false
  wgPeriod := 0
  wgDue := 0
  wgPhase := false
  reconfErr := false
  hist := []

end Sys2Proof.Machine
end

