-- ==== Sys2Proof/Machine/Operands.lean ====
section
/-! DEFINITION. Operand forms as the meanings use them (spec R101, R16), packed records (R90, R91), and the status port's
offsets and register names (R75, R110). -/

namespace Sys2Proof.Machine

/-! ## Extensions and halves (R16, R68) -/

/-- `zext_64` of a CLK_ADV delta (R101). -/
def deltaTime (delta : BitVec 24) : Time := delta.setWidth 64

/-- `zext_64` of a period (R167, R175). -/
def periodTime (p : Word) : Time := p.setWidth 64

/-- `V[31:0]` (R68). -/
def loHalf (v : Time) : Word := v.extractLsb' 0 32

/-- `V[63:32]` (R68). -/
def hiHalf (v : Time) : Word := v.extractLsb' 32 32

/-- `{HI, LO}` (R253). -/
def joinHalves (hi lo : Word) : Time := (hi ++ lo : BitVec 64)

/-! ## Packed records (R90, R91) -/

/-- The 73-bit layout of R90: pin, level, timestamp. -/
def RawEdgeEvent.pack (e : RawEdgeEvent) : BitVec 73 :=
  (e.pin ++ BitVec.ofBool e.level ++ e.tsUs : BitVec 73)

/-- The record a 73-bit value packs (R90). -/
def RawEdgeEvent.unpack (v : BitVec 73) : RawEdgeEvent where
  pin := v.extractLsb' 65 8
  level := v.getLsbD 64
  tsUs := v.extractLsb' 0 64

/-- The 65-bit layout of R91: level, timestamp. -/
def AcceptedEvent.pack (e : AcceptedEvent) : BitVec 65 :=
  (BitVec.ofBool e.level ++ e.tsUs : BitVec 65)

/-- The record a 65-bit value packs (R91). -/
def AcceptedEvent.unpack (v : BitVec 65) : AcceptedEvent where
  tsUs := v.extractLsb' 0 64
  level := v.getLsbD 64

/-- The event the filter emits from a raw event (R92): the pin identifier is dropped. -/
def RawEdgeEvent.toAccepted (raw : RawEdgeEvent) : AcceptedEvent where
  tsUs := raw.tsUs
  level := raw.level

/-! ## Status-port offsets (R67, R75, R110) -/

/-- The named registers of R75 (R110); `modeTable i` stands at 0x400 + 4·i for every i below 256. -/
inductive PortReg where
  | status
  | fifoStatus
  | dropCount
  | irqPending
  | debLastLo
  | debLastHi
  | nowLo
  | nowHi
  | wgPeriod
  | wgDueLo
  | wgDueHi
  | pulseT0Lo
  | pulseT0Hi
  | settleWindow
  | pulseDuration
  | modes
  | clockRes
  | edgeCfg
  | modeTable (i : BitVec 8)
  deriving DecidableEq, Repr

/-- R110: the offset a register name stands for. -/
def PortReg.offset : PortReg → BitVec 11
  | .status => 0x000
  | .fifoStatus => 0x004
  | .dropCount => 0x008
  | .irqPending => 0x00C
  | .debLastLo => 0x010
  | .debLastHi => 0x014
  | .nowLo => 0x018
  | .nowHi => 0x01C
  | .wgPeriod => 0x020
  | .wgDueLo => 0x024
  | .wgDueHi => 0x028
  | .pulseT0Lo => 0x02C
  | .pulseT0Hi => 0x030
  | .settleWindow => 0x034
  | .pulseDuration => 0x038
  | .modes => 0x03C
  | .clockRes => 0x040
  | .edgeCfg => 0x044
  | .modeTable i => BitVec.ofNat 11 (0x400 + 4 * i.toNat)

/-- R67: `a mod 4 = 0`. -/
def portAligned (a : BitVec 11) : Bool := a.extractLsb' 0 2 == 0#2

/-- The register at an aligned offset (R75); `none` is a reserved offset (R58). -/
def PortReg.ofOffset (a : BitVec 11) : Option PortReg :=
  if 0x400 ≤ a.toNat then some (.modeTable (BitVec.ofNat 8 ((a.toNat - 0x400) / 4)))
  else
    match a.toNat with
    | 0x000 => some .status
    | 0x004 => some .fifoStatus
    | 0x008 => some .dropCount
    | 0x00C => some .irqPending
    | 0x010 => some .debLastLo
    | 0x014 => some .debLastHi
    | 0x018 => some .nowLo
    | 0x01C => some .nowHi
    | 0x020 => some .wgPeriod
    | 0x024 => some .wgDueLo
    | 0x028 => some .wgDueHi
    | 0x02C => some .pulseT0Lo
    | 0x030 => some .pulseT0Hi
    | 0x034 => some .settleWindow
    | 0x038 => some .pulseDuration
    | 0x03C => some .modes
    | 0x040 => some .clockRes
    | 0x044 => some .edgeCfg
    | _ => none

end Sys2Proof.Machine
end

