-- ==== Sys2Proof/Machine/Flags.lean ====
section
/-! DEFINITION. The block has no condition codes (spec R46); this file has the codes of its flag-like fields (R37, R59,
R217), saturation (R16), and the registers assembled from them (R47, R48, R56). -/

namespace Sys2Proof.Machine

/-- `sat32(v) = min(v, 2^32 - 1)` (R16). -/
def sat32 (v : Nat) : Word := BitVec.ofNat 32 (min v (2 ^ 32 - 1))

/-- The edge outcome codes of R217. -/
def EdgeOutcome.code : EdgeOutcome → BitVec 2
  | .none => 0
  | .accepted => 1
  | .rejected => 2
  | .dropped => 3

/-- The task position codes of R37. -/
def TaskPos.code : TaskPos → BitVec 3
  | .pop => 0
  | .advance => 1
  | .pulseOn => 2
  | .pulseHold => 3
  | .reconf => 4

/-- The error report codes of R217. -/
def ErrReport.code : ErrReport → Nat
  | .reconfFail => 1

/-- The port response codes of R217. -/
def Resp.code : Resp → Nat
  | .ok => 0
  | .err => 1

/-- `ctl_valid` (R39). -/
def State.ctlValid (s : State) : Bool := s.ctl.isSome

/-- Register STATUS (R47), from bit 31 down to bit 0; the two zero fields are its reserved bits. -/
def statusWord (s : State) : Word :=
  (0#8 ++ s.mode ++ 0#4 ++ BitVec.ofBool s.ctlValid ++ s.task.code ++ s.lastOutcome.code ++ BitVec.ofBool s.debValid
    ++ BitVec.ofBool s.inLevel ++ BitVec.ofBool s.reconfErr ++ BitVec.ofBool s.wgEn ++ BitVec.ofBool s.buz
    ++ BitVec.ofBool s.led : BitVec 32)

/-- Register FIFO_STATUS (R48): CAPACITY over COUNT. -/
def fifoStatusWord (s : State) : Word :=
  (BitVec.ofNat 16 s.cfg.capacity ++ BitVec.ofNat 16 s.fifo.length : BitVec 32)

/-- Register MODES (R56): MODE_RESET over N. -/
def modesWord (c : Config) : Word :=
  (0#8 ++ BitVec.ofNat 8 c.modeReset ++ BitVec.ofNat 16 c.modes : BitVec 32)

/-- Register EDGE_CFG (R56): PIN_ID, IRQ_COALESCE, EDGE_SEL. -/
def edgeCfgWord (c : Config) : Word :=
  (0#16 ++ c.pinId ++ 0#5 ++ BitVec.ofBool c.irqCoalesce ++ c.edgeSel.code : BitVec 32)

/-- Register MODE_TABLE[i] (R57): the packed entry, 0 for `N ≤ i`. -/
def modeTableWord (c : Config) (i : Nat) : Word :=
  if i < c.modes then (c.specOf i).pack else 0

end Sys2Proof.Machine
end

