-- ==== Sys2Proof/Syntax.lean ====
section
/-! DEFINITION. The twelve operations of EA-OPS v1 with their operands (spec R98 to R102), the agents that take them (R23),
and the shape of a row of the opcode map. -/

namespace Sys2Proof

/-- The agents of R23. -/
inductive Agent where
  | env
  | isr
  | task
  | tmr
  deriving DecidableEq, Repr

/-- The execution contexts of R231; ENV is outside both. -/
inductive Context where
  | outside
  | interrupt
  | task
  deriving DecidableEq, Repr

/-- The operand formats of R100. -/
inductive Format where
  | Z
  | P
  | D
  | A
  | R
  deriving DecidableEq, Repr

/-- The operations of R102 without their operands. -/
inductive Mnemonic where
  | PIN_SET
  | CLK_ADV
  | RESET
  | BUS_RD
  | BUS_WR
  | EDGE_ISR
  | POP
  | ADVANCE
  | PULSE_ON
  | PULSE_OFF
  | RECONF
  | TICK
  deriving DecidableEq, Repr

/-- One operation with its operand as R101 assembles it; one constructor per row of the opcode map R102. -/
inductive Instr where
  /-- PIN_SET level, format P (R197). -/
  | pinSet (level : Bool)
  /-- CLK_ADV delta, format D (R199). -/
  | clkAdv (delta : BitVec 24)
  /-- RESET, format Z (R203). -/
  | reset
  /-- BUS_RD offset, format A (R204). -/
  | busRd (offset : BitVec 11)
  /-- BUS_WR offset, format A (R205). -/
  | busWr (offset : BitVec 11)
  /-- EDGE_ISR, format Z (R121). -/
  | edgeIsr
  /-- POP, format Z (R145). -/
  | pop
  /-- ADVANCE, format Z (R158). -/
  | advance
  /-- PULSE_ON, format Z (R186). -/
  | pulseOn
  /-- PULSE_OFF, format Z (R187). -/
  | pulseOff
  /-- RECONF fail, format R (R171). -/
  | reconf (fail : Bool)
  /-- TICK, format Z (R175). -/
  | tick
  deriving DecidableEq, Repr

/-- One row of the opcode map R102. -/
structure OpcodeRow where
  mnemonic : Mnemonic
  agent : Agent
  op : BitVec 4
  format : Format
  matchBits : Word
  mask : Word
  deriving DecidableEq, Repr

end Sys2Proof
end

