-- ==== Sys2Proof/Machine/Ops.lean ====
section
/-! DEFINITION. The shared operations over the state: what a step or a hold answers (spec R17, R19), the history (R43),
raising the edge interrupt (R196), the Debounce Filter (R131), push and pop (R141, R143), the outputs and the alarm
(R167), reset (R246), and the enabling conditions (R17). The block takes no exception (R215): raising an interrupt is
`raiseEdgeIrq`, taking one is the whole of EDGE_ISR or TICK (R228), and nothing is saved or restored (R229). -/

namespace Sys2Proof.Machine

/-! ## Outcomes (R17, R19) -/

/-- An operation that is not enabled (R19 (b)): nothing is written, and the other agents go on (log entry 2). -/
def hold (s : State) : Host.Outcome State Fault Refusal := .next s

/-- `require c` (R17): the operation's step where its enabling condition holds, else no step. -/
def require (c : Bool) (s t : State) : Host.Outcome State Fault Refusal :=
  if c then .next t else hold s

/-! ## History (R43) -/

/-- `record(h)` (R17): append a record. -/
def State.record (s : State) (h : Record) : State := { s with hist := s.hist ++ [h] }

/-! ## The edge interrupt (R196) -/

/-- `raise_edge_irq()` (R196): one more pending invocation, or the one-bit latch of IRQ_COALESCE. -/
def State.raiseEdgeIrq (s : State) : State :=
  { s with irqPending := if s.cfg.irqCoalesce then 1 else s.irqPending + 1 }

/-- R197: a new input level, raising the edge interrupt on a configured edge. -/
def State.setPin (s : State) (level : Bool) : State :=
  if s.cfg.edgeSel.configures s.inLevel level then { s with inLevel := level }.raiseEdgeIrq
  else { s with inLevel := level }

/-! ## The Debounce Filter (R131) -/

/-- `elapsed = raw.ts_us -_64 s.deb_last` (R131). -/
def State.elapsed (s : State) (t : Time) : Time := t - s.debLast

/-- The filter's rejection test (R131, R132). -/
def State.filterRejects (s : State) (t : Time) : Bool :=
  s.debValid && decide ((s.elapsed t).toNat < s.cfg.settleWindowUs.toNat)

/-- `filter(raw)` (R131): `none` is discarded with no state change. -/
def filter (raw : RawEdgeEvent) (s : State) : Option AcceptedEvent × State :=
  if s.filterRejects raw.tsUs then (none, s)
  else (some raw.toAccepted, { s with debValid := true, debLast := raw.tsUs })

/-! ## The Event Channel (R141, R143) -/

/-- `push(ev)` (R141): drop-newest when full (R142). -/
def push (ev : AcceptedEvent) (s : State) : Bool × State :=
  if s.fifo.length < s.cfg.capacity then (true, { s with fifo := s.fifo ++ [ev] })
  else (false, { s with dropCount := sat32 (s.dropCount.toNat + 1) })

/-- `pop()` (R143): `none` is the empty channel, on which the caller holds (R144). -/
def pop (s : State) : Option (AcceptedEvent × State) :=
  match s.fifo with
  | [] => none
  | ev :: rest => some (ev, { s with fifo := rest })

/-- `on_edge(level, timestamp)` (R124): the filter, then the push, with the outcome of R121. -/
def onEdge (raw : RawEdgeEvent) (s : State) : EdgeOutcome × State :=
  match filter raw s with
  | (none, s1) => (.rejected, s1)
  | (some ev, s1) =>
    match push ev s1 with
    | (true, s2) => (.accepted, s2)
    | (false, s2) => (.dropped, s2)

/-! ## Outputs (R28, R29, R43) -/

/-- Drive the LED and record the write (R43). -/
def State.driveLed (s : State) (v : Bool) : State := { s with led := v }.record (.out .led v s.now)

/-- Drive the buzzer and record the write (R43). -/
def State.driveBuz (s : State) (v : Bool) : State := { s with buz := v }.record (.out .buz v s.now)

/-! ## The periodic alarm (R31, R167) -/

/-- R167 step 1: stop and destroy the alarm. -/
def State.stopAlarm (s : State) : State :=
  { s with wgEn := false, wgPeriod := 0, wgDue := 0, wgPhase := false }

/-- R167 step 3: create and start an alarm; its first period elapses at `now + period` (R170). -/
def State.startAlarm (s : State) (p : Word) : State :=
  { s with wgEn := true, wgPeriod := p, wgDue := s.now + periodTime p, wgPhase := false }

/-- R169: the block's side of the error report. -/
def State.reportReconfFail (s : State) : State :=
  { s with reconfErr := true }.record (.errReport .reconfFail)

/-- `reconfigure(spec, fail)` (R167). -/
def reconfigure (spec : WaveformSpec) (fail : Bool) (s : State) : Bool × State :=
  let s1 := s.stopAlarm.driveLed false
  match spec with
  | .disabled => (true, s1)
  | .enabled p => if fail then (false, s1.reportReconfFail) else (true, s1.startAlarm p)

/-! ## The TASK agent's position (R156) -/

/-- `s.task <- S_x` (R17). -/
def State.moveTask (s : State) (p : TaskPos) : State := { s with task := p }

/-! ## Reset (R246, R247) -/

/-- `reset_state(s)` (R246): every field but the pin, the clock, the history, the parameters (R202) and the interleaving
still to be taken, which no operation writes. -/
def State.resetState (s : State) : State :=
  { s with
    led := false, buz := false, irqPending := 0, debValid := false, debLast := 0, fifo := [], dropCount := 0,
    lastOutcome := .none, mode := BitVec.ofNat 8 s.cfg.modeReset, task := .pop, ctl := none, pulseT0 := 0,
    wgEn := false, wgPeriod := 0, wgDue := 0, wgPhase := false, reconfErr := false }

/-- The power-on state (R247) for a configuration, the two draws, and an interleaving to be taken. -/
def State.powerOn (cfg : Config) (inLevel : Bool) (now : Time) (stream : List Byte) : State :=
  { State.reset with cfg := cfg, inLevel := inLevel, now := now, stream := stream, hist := [] }.resetState

/-! ## Enabling conditions (R17) -/

/-- R121: an edge-interrupt invocation is pending (R222). -/
def State.edgePending (s : State) : Bool := decide (0 < s.irqPending)

/-- R145: the TASK agent is at S_POP and the channel is not empty. -/
def State.popReady (s : State) : Bool := decide (s.task = .pop) && !s.fifo.isEmpty

/-- R158, R186, R171: the TASK agent is at a position. -/
def State.atTask (s : State) (p : TaskPos) : Bool := decide (s.task = p)

/-- R187: the pulse has lasted `PULSE_DURATION_US` (subtraction on naturals). -/
def State.pulseElapsed (s : State) : Bool :=
  decide (s.cfg.pulseDurationUs.toNat ≤ s.now.toNat - s.pulseT0.toNat)

/-- R187: the TASK agent holds the buzzer high and the duration has elapsed. -/
def State.pulseDone (s : State) : Bool := s.atTask .pulseHold && s.pulseElapsed

/-- R175, R223: the timer interrupt is pending (sums on naturals, no wrap). -/
def State.tickDue (s : State) : Bool :=
  s.wgEn && decide (s.wgDue.toNat ≤ s.now.toNat + s.cfg.clockResUs.toNat)

/-- R199, R200: the clock stays within its limit. -/
def State.clockAllows (s : State) (delta : BitVec 24) : Bool :=
  decide (s.now.toNat + delta.toNat ≤ clockLimit)

/-- `enabled(op)` (R17): an operation whose condition is false in the current state has no step (R19 (b)). ENV operations
are always enabled (R195); CLK_ADV above the clock limit is refused, not held (R200). -/
def enabled (i : Instr) (s : State) : Bool :=
  match i with
  | .pinSet _ => true
  | .clkAdv _ => true
  | .reset => true
  | .busRd _ => true
  | .busWr _ => true
  | .edgeIsr => s.edgePending
  | .pop => s.popReady
  | .advance => s.atTask .advance
  | .pulseOn => s.atTask .pulseOn
  | .pulseOff => s.pulseDone
  | .reconf _ => s.atTask .reconf
  | .tick => s.tickDue

end Sys2Proof.Machine
end

