-- ==== Sys2Proof/Machine/EdgeSampler.lean ====
section
/-! DEFINITION. The edge interrupt invocation EDGE_ISR (spec 40_edge_sampler.md): sample, filter, push, one atomic operation. -/

namespace Sys2Proof.Machine

/-- The sample (R121, R122): pin level and clock as they are when EDGE_ISR runs. -/
def State.sampleEdge (s : State) : RawEdgeEvent where
  pin := s.cfg.pinId
  level := s.inLevel
  tsUs := s.now

/-- EDGE_ISR's step (R121), where an invocation is pending. -/
def State.takeEdge (s : State) : State :=
  let raw := s.sampleEdge
  let r := onEdge raw { s with irqPending := s.irqPending - 1 }
  { r.2 with lastOutcome := r.1 }.record (.edge raw r.1)

/-- EDGE_ISR (R121). -/
def execEdgeIsr (s : State) : Host.Outcome State Fault Refusal :=
  require s.edgePending s s.takeEdge

end Sys2Proof.Machine
end

