-- ==== Sys2Proof/Machine/Environment.lean ====
section
/-! DEFINITION. The environment's stimuli: PIN_SET, CLK_ADV, RESET (spec 46_environment_and_port.md). -/

namespace Sys2Proof.Machine

/-- PIN_SET (R197). No history record: the edge shows in the later Edge record. -/
def execPinSet (level : Bool) (s : State) : Host.Outcome State Fault Refusal :=
  .next (s.setPin level)

/-- CLK_ADV (R199), refused above the clock limit (R200). -/
def execClkAdv (delta : BitVec 24) (s : State) : Host.Outcome State Fault Refusal :=
  if s.clockAllows delta then .next { s with now := s.now + deltaTime delta }
  else .refused (.clockOverflow s.now delta)

/-- RESET (R203): `reset_state`, then the record. -/
def execReset (s : State) : Host.Outcome State Fault Refusal :=
  .next (s.resetState.record (.reset s.now))

end Sys2Proof.Machine
end

