-- ==== Sys2Proof/Machine/EventChannel.lean ====
section
/-! DEFINITION. The TASK agent's POP (spec 42_event_channel.md R145). -/

namespace Sys2Proof.Machine

/-- POP (R145): the oldest event becomes the controller's. On an empty channel, or away from S_POP, no step (R144). -/
def execPop (s : State) : Host.Outcome State Fault Refusal :=
  if s.atTask .pop then
    match pop s with
    | none => hold s
    | some (ev, s1) => .next (({ s1 with ctl := some ev }.moveTask .advance).record (.pop ev))
  else hold s

end Sys2Proof.Machine
end

