-- ==== Sys2Proof/Machine/ModeController.lean ====
section
/-! DEFINITION. The TASK agent's ADVANCE (spec 43_mode_controller.md R158). -/

namespace Sys2Proof.Machine

/-- `(mode + 1) mod N` on naturals, stored in 8 bits (R158). -/
def nextMode (c : Config) (mode : BitVec 8) : BitVec 8 := BitVec.ofNat 8 ((mode.toNat + 1) % c.modes)

/-- ADVANCE (R158). -/
def execAdvance (s : State) : Host.Outcome State Fault Refusal :=
  require (s.atTask .advance) s ({ s with mode := nextMode s.cfg s.mode }.moveTask .pulseOn)

end Sys2Proof.Machine
end

