-- ==== Sys2Proof/Machine/PulseActuator.lean ====
section
/-! DEFINITION. The TASK agent's PULSE_ON and PULSE_OFF (spec 45_pulse_actuator.md). -/

namespace Sys2Proof.Machine

/-- PULSE_ON (R186). -/
def execPulseOn (s : State) : Host.Outcome State Fault Refusal :=
  require (s.atTask .pulseOn) s (({ s with pulseT0 := s.now }.moveTask .pulseHold).driveBuz true)

/-- PULSE_OFF (R187): no step until the duration has elapsed. -/
def execPulseOff (s : State) : Host.Outcome State Fault Refusal :=
  require s.pulseDone s ((s.moveTask .reconf).driveBuz false)

end Sys2Proof.Machine
end

