-- ==== Sys2Proof/Machine/StatusPort.lean ====
section
/-! DEFINITION. The status port (spec R47 to R58, R65 to R75) and the host's accesses to it: BUS_RD, BUS_WR. -/

namespace Sys2Proof.Machine

/-- What a register reads in a state (R47 to R57). -/
def PortReg.read (r : PortReg) (s : State) : Word :=
  match r with
  | .status => statusWord s
  | .fifoStatus => fifoStatusWord s
  | .dropCount => s.dropCount
  | .irqPending => sat32 s.irqPending
  | .debLastLo => loHalf s.debLast
  | .debLastHi => hiHalf s.debLast
  | .nowLo => loHalf s.now
  | .nowHi => hiHalf s.now
  | .wgPeriod => s.wgPeriod
  | .wgDueLo => loHalf s.wgDue
  | .wgDueHi => hiHalf s.wgDue
  | .pulseT0Lo => loHalf s.pulseT0
  | .pulseT0Hi => hiHalf s.pulseT0
  | .settleWindow => s.cfg.settleWindowUs
  | .pulseDuration => s.cfg.pulseDurationUs
  | .modes => modesWord s.cfg
  | .clockRes => s.cfg.clockResUs
  | .edgeCfg => edgeCfgWord s.cfg
  | .modeTable i => modeTableWord s.cfg i.toNat

/-- `reg(s, a)` (R70): reserved offsets read 0 (R58). -/
def portReg (s : State) (a : BitVec 11) : Word :=
  match PortReg.ofOffset a with
  | some r => r.read s
  | none => 0

/-- `MemRead(a, 4)` (R70, R67). -/
def memRead (s : State) (a : BitVec 11) : Word × Resp :=
  if portAligned a then (portReg s a, .ok) else (0, .err)

/-- BUS_RD (R204): the value and response the host gets are those of the Read record (log entry 9). -/
def execBusRd (offset : BitVec 11) (s : State) : Host.Outcome State Fault Refusal :=
  .next (s.record (.read offset (memRead s offset).1 (memRead s offset).2))

/-- BUS_WR (R205, R69): always answered ERR, with no effect. -/
def execBusWr (offset : BitVec 11) (s : State) : Host.Outcome State Fault Refusal :=
  .next (s.record (.read offset 0 .err))

end Sys2Proof.Machine
end

