-- ==== Sys2Proof/Machine/WaveformGenerator.lean ====
section
/-! DEFINITION. The Waveform Generator: the TASK agent's RECONF and the TMR agent's TICK (spec 44_waveform_generator.md). -/

namespace Sys2Proof.Machine

/-- RECONF's step (R171): look up the spec of the mode, apply it, record. -/
def State.applyMode (s : State) (fail : Bool) : State :=
  let spec := s.cfg.specOf s.mode.toNat
  let r := reconfigure spec fail s
  (r.2.record (.reconf s.mode spec r.1)).moveTask .pop

/-- RECONF (R171): stop-and-recreate, never in place (R166). -/
def execReconf (fail : Bool) (s : State) : Host.Outcome State Fault Refusal :=
  require (s.atTask .reconf) s (s.applyMode fail)

/-- TICK's step (R175): flip the boolean, the LED follows it (R174), the next elapse is one period on (R177). -/
def State.toggle (s : State) : State :=
  { s with wgPhase := !s.wgPhase, wgDue := s.wgDue + periodTime s.wgPeriod }.driveLed (!s.wgPhase)

/-- TICK (R175). -/
def execTick (s : State) : Host.Outcome State Fault Refusal :=
  require s.tickDue s s.toggle

end Sys2Proof.Machine
end

