-- ==== Sys2Proof/Machine/Dispatch.lean ====
section
/-! DEFINITION. One arm per operation of the opcode map (spec R102), each one direct call of its meaning. -/

namespace Sys2Proof.Machine

def exec (i : Instr) (s : State) : Host.Outcome State Fault Refusal :=
  match i with
  | .pinSet level => Sys2Proof.Machine.execPinSet level s
  | .clkAdv delta => Sys2Proof.Machine.execClkAdv delta s
  | .reset => Sys2Proof.Machine.execReset s
  | .busRd offset => Sys2Proof.Machine.execBusRd offset s
  | .busWr offset => Sys2Proof.Machine.execBusWr offset s
  | .edgeIsr => Sys2Proof.Machine.execEdgeIsr s
  | .pop => Sys2Proof.Machine.execPop s
  | .advance => Sys2Proof.Machine.execAdvance s
  | .pulseOn => Sys2Proof.Machine.execPulseOn s
  | .pulseOff => Sys2Proof.Machine.execPulseOff s
  | .reconf fail => Sys2Proof.Machine.execReconf fail s
  | .tick => Sys2Proof.Machine.execTick s

end Sys2Proof.Machine
end

