-- ==== Sys2Proof/WellFormed.lean ====
section
/-! DEFINITION. Which operations have an encoding (spec R100): every operand fits its field by its type, and the one
constraint left is that of format D, `IMM ≠ 0`. -/

namespace Sys2Proof

/-- R100, R106: CLK_ADV with delta 0 has no encoding; every other operand value has one. -/
def Instr.wellFormed : Instr → Bool
  | .pinSet _ => true
  | .clkAdv delta => delta != 0#24
  | .reset => true
  | .busRd _ => true
  | .busWr _ => true
  | .edgeIsr => true
  | .pop => true
  | .advance => true
  | .pulseOn => true
  | .pulseOff => true
  | .reconf _ => true
  | .tick => true

end Sys2Proof
end

