-- ==== Sys2Proof/Decode.lean ====
section
/-! DEFINITION. The operation word (spec R98 to R107): fields, opcode map, decoder, encoder, and the byte stream of R74. -/

namespace Sys2Proof

/-! ## Fields of the word (R98) -/

/-- `AG = w[31:28]`. -/
def agField (w : Word) : BitVec 4 := w.extractLsb' 28 4

/-- `OP = w[27:24]`. -/
def opField (w : Word) : BitVec 4 := w.extractLsb' 24 4

/-- `IMM = w[23:0]`. -/
def immField (w : Word) : BitVec 24 := w.extractLsb' 0 24

/-- The agent codes of R99. -/
def Agent.code : Agent → BitVec 4
  | .env => 0
  | .isr => 1
  | .task => 2
  | .tmr => 3

/-- R231: the context an agent runs in. -/
def Agent.context : Agent → Context
  | .env => .outside
  | .isr => .interrupt
  | .task => .task
  | .tmr => .interrupt

/-! ## Operands (R100, R101) -/

/-- Format Z: no operand. -/
def formatZ (imm : BitVec 24) : Bool := imm == 0#24

/-- Formats P and R: one bit, `IMM[23:1] = 0`. -/
def formatBit (imm : BitVec 24) : Bool := imm.extractLsb' 1 23 == 0#23

/-- Format D: `IMM ≠ 0`. -/
def formatD (imm : BitVec 24) : Bool := imm != 0#24

/-- Format A: `IMM[23:11] = 0`. -/
def formatA (imm : BitVec 24) : Bool := imm.extractLsb' 11 13 == 0#13

/-- The constraint R100 puts on IMM in each format. -/
def Format.allows : Format → BitVec 24 → Bool
  | .Z, imm => formatZ imm
  | .P, imm => formatBit imm
  | .D, imm => formatD imm
  | .A, imm => formatA imm
  | .R, imm => formatBit imm

/-- `IMM[0]` as a Bool: `level` and `fail`. -/
def bitOperand (imm : BitVec 24) : Bool := imm.getLsbD 0

/-- `IMM[10:0]`: `offset`. -/
def offsetOperand (imm : BitVec 24) : BitVec 11 := imm.extractLsb' 0 11

/-! ## The opcode map (R102) -/

/-- The map of R102, row by row. -/
def opcodeMap : List OpcodeRow :=
  [ ⟨.PIN_SET,   .env,  0, .P, 0x00000000, 0xFFFFFFFE⟩,
    ⟨.CLK_ADV,   .env,  1, .D, 0x01000000, 0xFF000000⟩,
    ⟨.RESET,     .env,  2, .Z, 0x02000000, 0xFFFFFFFF⟩,
    ⟨.BUS_RD,    .env,  3, .A, 0x03000000, 0xFFFFF800⟩,
    ⟨.BUS_WR,    .env,  4, .A, 0x04000000, 0xFFFFF800⟩,
    ⟨.EDGE_ISR,  .isr,  0, .Z, 0x10000000, 0xFFFFFFFF⟩,
    ⟨.POP,       .task, 0, .Z, 0x20000000, 0xFFFFFFFF⟩,
    ⟨.ADVANCE,   .task, 1, .Z, 0x21000000, 0xFFFFFFFF⟩,
    ⟨.PULSE_ON,  .task, 2, .Z, 0x22000000, 0xFFFFFFFF⟩,
    ⟨.PULSE_OFF, .task, 3, .Z, 0x23000000, 0xFFFFFFFF⟩,
    ⟨.RECONF,    .task, 4, .R, 0x24000000, 0xFFFFFFFE⟩,
    ⟨.TICK,      .tmr,  0, .Z, 0x30000000, 0xFFFFFFFF⟩ ]

/-- R102: a word selects a row when `w & mask = match` and the row's format constraint holds. -/
def OpcodeRow.selects (row : OpcodeRow) (w : Word) : Bool :=
  (w &&& row.mask == row.matchBits) && row.format.allows (immField w)

/-- The row an operation stands in. -/
def Instr.mnemonic : Instr → Mnemonic
  | .pinSet _ => .PIN_SET
  | .clkAdv _ => .CLK_ADV
  | .reset => .RESET
  | .busRd _ => .BUS_RD
  | .busWr _ => .BUS_WR
  | .edgeIsr => .EDGE_ISR
  | .pop => .POP
  | .advance => .ADVANCE
  | .pulseOn => .PULSE_ON
  | .pulseOff => .PULSE_OFF
  | .reconf _ => .RECONF
  | .tick => .TICK

/-- The agent that takes an operation (R23, R99). -/
def Instr.agent : Instr → Agent
  | .pinSet _ => .env
  | .clkAdv _ => .env
  | .reset => .env
  | .busRd _ => .env
  | .busWr _ => .env
  | .edgeIsr => .isr
  | .pop => .task
  | .advance => .task
  | .pulseOn => .task
  | .pulseOff => .task
  | .reconf _ => .task
  | .tick => .tmr

/-- The operation code within the agent (R102). -/
def Instr.op : Instr → BitVec 4
  | .pinSet _ => 0
  | .clkAdv _ => 1
  | .reset => 2
  | .busRd _ => 3
  | .busWr _ => 4
  | .edgeIsr => 0
  | .pop => 0
  | .advance => 1
  | .pulseOn => 2
  | .pulseOff => 3
  | .reconf _ => 4
  | .tick => 0

/-! ## The decoder (R105, R106, R112) -/

/-- What the decoder answers (R105): one operation with its operand, or the verdict `INVALID_WORD`. -/
inductive Decoded where
  | operation (i : Instr)
  | invalidWord
  deriving DecidableEq, Repr

/-- An operation under its format constraint, else `INVALID_WORD`. -/
def constrained (ok : Bool) (i : Instr) : Decoded :=
  if ok then .operation i else .invalidWord

/-- The decoder of R105, total on any 32-bit word. -/
def decode (w : Word) : Decoded :=
  let imm := immField w
  match (agField w).toNat, (opField w).toNat with
  | 0, 0 => constrained (formatBit imm) (.pinSet (bitOperand imm))
  | 0, 1 => constrained (formatD imm) (.clkAdv imm)
  | 0, 2 => constrained (formatZ imm) .reset
  | 0, 3 => constrained (formatA imm) (.busRd (offsetOperand imm))
  | 0, 4 => constrained (formatA imm) (.busWr (offsetOperand imm))
  | 1, 0 => constrained (formatZ imm) .edgeIsr
  | 2, 0 => constrained (formatZ imm) .pop
  | 2, 1 => constrained (formatZ imm) .advance
  | 2, 2 => constrained (formatZ imm) .pulseOn
  | 2, 3 => constrained (formatZ imm) .pulseOff
  | 2, 4 => constrained (formatBit imm) (.reconf (bitOperand imm))
  | 3, 0 => constrained (formatZ imm) .tick
  | _, _ => .invalidWord

/-! ## The encoder (R101, R105) -/

/-- IMM built from the operand by R101. -/
def Instr.imm : Instr → BitVec 24
  | .pinSet level => (BitVec.ofBool level).setWidth 24
  | .clkAdv delta => delta
  | .reset => 0
  | .busRd offset => offset.setWidth 24
  | .busWr offset => offset.setWidth 24
  | .edgeIsr => 0
  | .pop => 0
  | .advance => 0
  | .pulseOn => 0
  | .pulseOff => 0
  | .reconf fail => (BitVec.ofBool fail).setWidth 24
  | .tick => 0

/-- R105: `encode(op) = (AG << 28) | (OP << 24) | IMM`. -/
def encode (i : Instr) : Word :=
  (i.agent.code.setWidth 32 <<< 28) ||| (i.op.setWidth 32 <<< 24) ||| i.imm.setWidth 32

/-! ## The byte stream of operation words (R68, R74) -/

/-- R68: byte `k` of a word holds bits `8k+7 : 8k`. -/
def wordByte (w : Word) (k : Nat) : Byte := w.extractLsb' (8 * k) 8

/-- The four bytes of a word in the order they are stored (R74). -/
def wordBytes (w : Word) : List Byte :=
  [wordByte w 0, wordByte w 1, wordByte w 2, wordByte w 3]

/-- The word four stored bytes hold (R74). -/
def bytesWord (b0 b1 b2 b3 : Byte) : Word :=
  (b3 ++ b2 ++ b1 ++ b0 : BitVec 32)

/-- The bytes of a sequence of operations (R74). -/
def encodeStream (is : List Instr) : List Byte :=
  is.flatMap fun i => wordBytes (encode i)

/-- What stands at the head of a byte stream. -/
inductive Fetched where
  /-- No operation is offered: the stream is used up. -/
  | empty
  /-- The first word decodes; `rest` is the stream after it. -/
  | operation (i : Instr) (rest : List Byte)
  /-- The first word, or the final partial word, is refused with `INVALID_WORD` (R74, R112). -/
  | invalidWord (bytes : List Byte)
  deriving DecidableEq, Repr

/-- The decoder on bytes: words of 4 bytes, little-endian; a final partial word is `INVALID_WORD` (R74). -/
def fetchWord : List Byte → Fetched
  | [] => .empty
  | b0 :: b1 :: b2 :: b3 :: rest =>
    match decode (bytesWord b0 b1 b2 b3) with
    | .operation i => .operation i rest
    | .invalidWord => .invalidWord [b0, b1, b2, b3]
  | [b0] => .invalidWord [b0]
  | [b0, b1] => .invalidWord [b0, b1]
  | [b0, b1, b2] => .invalidWord [b0, b1, b2]

/-! ## The host's view of one row of the opcode table -/

/-- The bytes of a table word: `nbits` bits of it, the bits above them 0, laid out as R74 stores a word. -/
def tableBytes (nbits w : Nat) : List Byte := wordBytes (BitVec.ofNat 32 (w % 2 ^ nbits))

/-- The operation the decoder reads from a table word (`none` where it answers `INVALID_WORD`). -/
def decodeTableWord (nbits w : Nat) : Option Instr :=
  match fetchWord (tableBytes nbits w) with
  | .operation i _ => some i
  | .empty => none
  | .invalidWord _ => none

end Sys2Proof
end

