-- ==== Sys2Proof/Machine/Stream.lean ====
section
/-! DEFINITION. Taking the next operation word from the interleaving (spec R24, R74, R99), as step does it, and offering one. -/

namespace Sys2Proof.Machine

/-- The word at the head of the stream. -/
def State.fetch (s : State) : Fetched := fetchWord s.stream

/-- The state once the word at the head of the stream is taken. -/
def State.afterWord (s : State) (rest : List Byte) : State := { s with stream := rest }

/-- An operation word offered before every other one. -/
def State.offerBytes (s : State) (bytes : List Byte) : State := { s with stream := bytes ++ s.stream }

end Sys2Proof.Machine
end

