-- ==== Sys2Proof/Machine/Step.lean ====
section
/-! DEFINITION. One step of the machine: the next operation of the interleaving (spec R24, R77), taken by the agent its word
names (R99). -/

namespace Sys2Proof.Machine

/-- In an admitted configuration (R14), take the word at the head of the stream and run its operation; with no operation
offered nothing moves (log entry 3); a word that is no operation is refused (R112). -/
def step (s : State) : Host.Outcome State Fault Refusal :=
  if s.cfg.admitted then
    match s.fetch with
    | .empty => .next s
    | .operation i rest => exec i (s.afterWord rest)
    | .invalidWord bytes => .refused (.invalidWord bytes)
  else .refused .badConfig

/-- `s` with the operation of a table word offered next (log entry 1). -/
def State.withFetchWord (s : State) (nbits w : Nat) : State := s.offerBytes (tableBytes nbits w)

end Sys2Proof.Machine
end

