-- ==== Sys2Proof/Safety.lean ====
section
/-! DEFINITION. The terms claims are made in: the agents' steps in any order (spec R24), runs and reachable states, the
invariants of R45, what the history says since the last reset (R43), quiescence (R259) and weak fairness (R24). -/

namespace Sys2Proof.Machine

/-! ## Steps of the agents in any order (R24, R77) -/

/-- Operation `i` takes a step from `s` to `t`: it is an operation with an encoding (R100), its enabling condition holds
and its answer is `t` (R19 (a)). Any agent may take the next such step, whatever the state's own stream offers. -/
def Takes (i : Instr) (s t : State) : Prop :=
  i.wellFormed = true ∧ enabled i s = true ∧ exec i s = .next t

/-- A finite interleaving: the operations of the list, taken in order (R24, R77). -/
inductive Path : State → List Instr → State → Prop where
  | nil (s : State) : Path s [] s
  | cons {i : Instr} {is : List Instr} {s t u : State} : Takes i s t → Path t is u → Path s (i :: is) u

/-- The start states of R247: power-on of an admitted configuration, any pin level, any clock value within the limit. -/
def Start (s : State) : Prop :=
  ∃ cfg inLevel now stream,
    cfg.admitted = true ∧ now.toNat ≤ clockLimit ∧ s = State.powerOn cfg inLevel now stream

/-- Reachable: some interleaving leads there from a start state. -/
def Reachable (s : State) : Prop := ∃ s₀ is, Start s₀ ∧ Path s₀ is s

/-! ## The invariants of R45 -/

/-- (a) to (j) of R45, in an admitted configuration, with what their proof needs beside them: the clock limit (R200), the
bound on the due time that R200 derives, and the one-bit latch of IRQ_COALESCE (R123). -/
structure BlockInv (s : State) : Prop where
  admitted : s.cfg.admitted = true
  /-- (a) -/
  fifoBound : s.fifo.length ≤ s.cfg.capacity
  /-- (b) -/
  modeBound : s.mode.toNat < s.cfg.modes
  /-- (c) -/
  periodAboveRes : s.wgEn = true → s.cfg.clockResUs.toNat < s.wgPeriod.toNat
  /-- (d) -/
  ledIsPhase : s.led = s.wgPhase
  /-- (e) -/
  buzIffHold : s.buz = true ↔ s.task = .pulseHold
  /-- (f) -/
  debLastZero : s.debValid = false → s.debLast = 0
  /-- (g) -/
  debLastPast : s.debValid = true → s.debLast.toNat ≤ s.now.toNat
  /-- (h) -/
  pulsePast : s.task = .pulseHold → s.pulseT0.toNat ≤ s.now.toNat
  /-- (i) -/
  disabledNormal : s.wgEn = false → s.wgPeriod = 0 ∧ s.wgDue = 0 ∧ s.wgPhase = false
  /-- (j) -/
  duePositive : s.wgEn = true → 0 < s.wgDue.toNat
  /-- R200 -/
  clockBound : s.now.toNat ≤ clockLimit
  /-- R200 -/
  dueBound : s.wgEn = true → s.wgDue.toNat ≤ s.now.toNat + s.cfg.clockResUs.toNat + s.wgPeriod.toNat
  /-- R123 -/
  latchBound : s.cfg.irqCoalesce = true → s.irqPending ≤ 1

/-! ## What the history says since the last reset (R43) -/

/-- The records after the last `Reset` record, oldest first. -/
def sinceReset (h : List Record) : List Record :=
  h.foldl (fun acc r => match r with
    | .reset _ => []
    | r => acc ++ [r]) []

/-- The event an edge record pushed, if its push succeeded (R217). -/
def Record.pushed : Record → Option AcceptedEvent
  | .edge raw .accepted => some raw.toAccepted
  | _ => none

/-- The event a record popped. -/
def Record.popped : Record → Option AcceptedEvent
  | .pop ev => some ev
  | _ => none

/-- The timestamp of an edge the filter passed: ACCEPTED, or DROPPED at the full channel (R217). -/
def Record.passed : Record → Option Time
  | .edge raw .accepted => some raw.tsUs
  | .edge raw .dropped => some raw.tsUs
  | _ => none

/-- Is a record an edge dropped at the full channel (R217)? -/
def Record.isDrop : Record → Bool
  | .edge _ .dropped => true
  | _ => false

/-- The write of the buzzer a record shows, with its clock value. -/
def Record.buzWrite : Record → Option (Bool × Time)
  | .out .buz v t => some (v, t)
  | _ => none

/-- The write of the LED a record shows. -/
def Record.ledWrite : Record → Option Bool
  | .out .led v _ => some v
  | _ => none

/-- The events pushed since the last reset, in push order. -/
def pushedEvents (s : State) : List AcceptedEvent := (sinceReset s.hist).filterMap Record.pushed

/-- The events popped since the last reset, in pop order. -/
def poppedEvents (s : State) : List AcceptedEvent := (sinceReset s.hist).filterMap Record.popped

/-- The timestamps the filter passed since the last reset. -/
def passedTimes (s : State) : List Time := (sinceReset s.hist).filterMap Record.passed

/-- How many edges were dropped since the last reset. -/
def droppedEdges (s : State) : Nat := ((sinceReset s.hist).filter Record.isDrop).length

/-- The buzzer's writes since the last reset. -/
def buzWrites (s : State) : List (Bool × Time) := (sinceReset s.hist).filterMap Record.buzWrite

/-- The LED's writes since the last reset. -/
def ledWrites (s : State) : List Bool := (sinceReset s.hist).filterMap Record.ledWrite

/-- R146 (a), R79: the events pushed are, in push order, those popped and then those still in the channel. -/
def ChannelInOrder (s : State) : Prop := pushedEvents s = poppedEvents s ++ s.fifo

/-- R136 (a): the timestamps the filter passed lie at least a settle window apart, and the last of them is `deb_last`. -/
def DebounceSpaced (s : State) : Prop :=
  (passedTimes s).Pairwise (fun a b => a.toNat + s.cfg.settleWindowUs.toNat ≤ b.toNat)
    ∧ (passedTimes s).getLast? = if s.debValid then some s.debLast else none

/-- R36, R217: the drop counter is the saturated count of DROPPED outcomes. -/
def DropsCounted (s : State) : Prop := s.dropCount.toNat = min (droppedEdges s) (2 ^ 32 - 1)

/-- R160 (b): the mode is MODE_RESET advanced once per event the controller popped, less the one ADVANCE still due at
S_ADVANCE. -/
def ModeCountsEvents (s : State) : Prop :=
  (s.mode.toNat + if s.task = .advance then 1 else 0) % s.cfg.modes
    = (s.cfg.modeReset + (poppedEvents s).length) % s.cfg.modes

/-- R187, R188, R258: the buzzer's writes alternate high and low, each high one stands for at least the pulse duration
before the low one, and the output shows the last of them. -/
def PulsesHeld (s : State) : Prop :=
  (∀ l v t v' t' r, buzWrites s = l ++ (v, t) :: (v', t') :: r →
      v' = !v ∧ (v = true → t.toNat + s.cfg.pulseDurationUs.toNat ≤ t'.toNat))
    ∧ (∀ l v t, buzWrites s = l ++ [(v, t)] → s.buz = v ∧ (v = true → t = s.pulseT0))
    ∧ (∀ v t r, buzWrites s = (v, t) :: r → v = true)
    ∧ (buzWrites s = [] → s.buz = false)

/-- R43, R28: the LED shows the last value written to it since reset, low if there is none. -/
def LedShowsLastWrite (s : State) : Prop := s.led = (ledWrites s).getLast?.getD false

/-! ## What the controller does not look at -/

/-- A state with the history and the contents of every event blanked: how many events wait, and whether the controller has
received one, still show (R43, R157). -/
def State.blind (s : State) : State :=
  { s with
    fifo := s.fifo.map fun _ => ⟨0, false⟩
    ctl := s.ctl.map fun _ => ⟨0, false⟩
    hist := [] }

/-- Pushes one after another, with no pop between them (R146 (b)). -/
def pushAll : List AcceptedEvent → State → State
  | [], s => s
  | ev :: evs, s => pushAll evs (push ev s).2

/-- The microseconds a sequence of operations adds to the clock (R199). -/
def clockAdvance : List Instr → Nat
  | [] => 0
  | .clkAdv delta :: is => delta.toNat + clockAdvance is
  | _ :: is => clockAdvance is

/-! ## Waiting, quiescence, progress -/

/-- The TASK agent has no enabled operation (R156). -/
def TaskWaits (s : State) : Prop :=
  (s.task = .pop ∧ s.fifo = []) ∨ (s.task = .pulseHold ∧ s.pulseElapsed = false)

/-- Only ENV has an enabled operation (R259, log entry 14). -/
def OnlyEnvEnabled (s : State) : Prop := ∀ i, i.agent ≠ .env → enabled i s = false

/-- An infinite run: one operation taken at every index. -/
structure Run where
  state : Nat → State
  op : Nat → Instr
  taken : ∀ n, Takes (op n) (state n) (state (n + 1))

/-- Weak fairness (R24): an operation of ISR, TASK or TMR that stays enabled is eventually taken (RECONF with either
answer of the alarm primitive). -/
def Run.WeaklyFair (r : Run) : Prop :=
  ∀ i n, i.agent ≠ .env → (∀ k, n ≤ k → enabled i (r.state k) = true) →
    ∃ k, n ≤ k ∧ (r.op k).mnemonic = i.mnemonic

end Sys2Proof.Machine
end

