-- ==== Sys2Proof/Certificates/Slice0/Obligations.lean ====
section
/-! DEFINITION. The statements for the provers, from the spec's numbered rules. A statement about `exec` covers every form
of the operation; "enabled" is R17's condition, spelled out in each statement. The block has no byte memory (R65, R84): a
frame speaks of every field of the state. -/

open Sys2Proof Sys2Proof.Machine

/-! ## Encoding -/

/-- R111: the worked encodings, both ways, and the worked INVALID_WORDs. -/
def Obligations.WorkedWordsDecode : Prop :=
  (∀ p ∈ [(Instr.pinSet true, 0x00000001#32), (.pinSet false, 0x00000000#32), (.clkAdv 10000, 0x01002710#32),
      (.clkAdv 50000, 0x0100C350#32), (.clkAdv 100000, 0x010186A0#32), (.clkAdv 16777215, 0x01FFFFFF#32),
      (.reset, 0x02000000#32), (.busRd PortReg.status.offset, 0x03000000#32),
      (.busRd PortReg.dropCount.offset, 0x03000008#32), (.busRd PortReg.nowHi.offset, 0x0300001C#32),
      (.busWr PortReg.status.offset, 0x04000000#32), (.edgeIsr, 0x10000000#32), (.pop, 0x20000000#32),
      (.advance, 0x21000000#32), (.pulseOn, 0x22000000#32), (.pulseOff, 0x23000000#32),
      (.reconf false, 0x24000000#32), (.reconf true, 0x24000001#32), (.tick, 0x30000000#32)],
    encode p.1 = p.2 ∧ decode p.2 = .operation p.1) ∧
  decode 0x00000002#32 = .invalidWord ∧ decode 0x01000000#32 = .invalidWord ∧ decode 0x05000000#32 = .invalidWord ∧
  decode 0x10000001#32 = .invalidWord ∧ decode 0x25000000#32 = .invalidWord ∧ decode 0x31000000#32 = .invalidWord ∧
  decode 0x40000000#32 = .invalidWord ∧ decode 0xFFFFFFFF#32 = .invalidWord ∧ decode 0x03000800#32 = .invalidWord

/-- R105's law, first half: decoding the encoding of an operation gives it back, for every operand value. -/
def Obligations.DecodeOfEncode : Prop :=
  ∀ i : Instr, i.wellFormed = true → decode (encode i) = .operation i

/-- R105's law, second half: a word that decodes is the encoding of what it decodes to, which is well formed. -/
def Obligations.EncodeOfDecode : Prop :=
  ∀ (w : Word) (i : Instr), decode w = .operation i → i.wellFormed = true ∧ encode i = w

/-- R100, R101: which words decode to which operation, as numbers: the agent and operation codes above the operand. -/
def Obligations.DecodeReadsEveryField : Prop :=
  ∀ w : Word,
    (∀ l, decode w = .operation (.pinSet l) ↔ w.toNat = if l then 1 else 0) ∧
    (∀ d, decode w = .operation (.clkAdv d) ↔ w.toNat = 0x01000000 + d.toNat ∧ 1 ≤ d.toNat) ∧
    (decode w = .operation .reset ↔ w.toNat = 0x02000000) ∧
    (∀ o, decode w = .operation (.busRd o) ↔ w.toNat = 0x03000000 + o.toNat) ∧
    (∀ o, decode w = .operation (.busWr o) ↔ w.toNat = 0x04000000 + o.toNat) ∧
    (decode w = .operation .edgeIsr ↔ w.toNat = 0x10000000) ∧
    (decode w = .operation .pop ↔ w.toNat = 0x20000000) ∧
    (decode w = .operation .advance ↔ w.toNat = 0x21000000) ∧
    (decode w = .operation .pulseOn ↔ w.toNat = 0x22000000) ∧
    (decode w = .operation .pulseOff ↔ w.toNat = 0x23000000) ∧
    (∀ f, decode w = .operation (.reconf f) ↔ w.toNat = 0x24000000 + if f then 1 else 0) ∧
    (decode w = .operation .tick ↔ w.toNat = 0x30000000)

/-- R106: the illegal and reserved encodings, complete, and that a misaligned port offset is a legal encoding, which the
port answers with ERR. -/
def Obligations.ReservedWordsRejected : Prop :=
  (∀ w : Word, decode w = .invalidWord ↔
    let ag := w.toNat / 2 ^ 28
    let op := w.toNat / 2 ^ 24 % 16
    let imm := w.toNat % 2 ^ 24
    4 ≤ ag ∨ (ag = 0 ∧ 5 ≤ op) ∨ (ag = 1 ∧ 1 ≤ op) ∨ (ag = 2 ∧ 5 ≤ op) ∨ (ag = 3 ∧ 1 ≤ op) ∨
      (ag = 0 ∧ op = 0 ∧ 2 ≤ imm) ∨ (ag = 0 ∧ op = 1 ∧ imm = 0) ∨ (ag = 0 ∧ op = 2 ∧ imm ≠ 0) ∨
      (ag = 0 ∧ (op = 3 ∨ op = 4) ∧ 0x800 ≤ imm) ∨ (ag = 1 ∧ op = 0 ∧ imm ≠ 0) ∨
      (ag = 2 ∧ op ≤ 3 ∧ imm ≠ 0) ∨ (ag = 2 ∧ op = 4 ∧ 2 ≤ imm) ∨ (ag = 3 ∧ op = 0 ∧ imm ≠ 0)) ∧
  (∀ o : BitVec 11, o.toNat % 4 ≠ 0 →
    decode (BitVec.ofNat 32 (0x03000000 + o.toNat)) = .operation (.busRd o) ∧
    decode (BitVec.ofNat 32 (0x04000000 + o.toNat)) = .operation (.busWr o) ∧
    (∀ s : State, memRead s o = (0, .err)))

/-- R102: the opcode map selects a word's row exactly where the decoder reads that row's operation, the row's AG and OP are
the word's, and the decoder reads an operation only where some row is selected. -/
def Obligations.DecoderAgreesWithOpcodeMap : Prop :=
  opcodeMap.length = 12 ∧
  (∀ w : Word, ∀ row ∈ opcodeMap,
    (row.selects w = true ↔ ∃ i, decode w = .operation i ∧ i.mnemonic = row.mnemonic) ∧
    (row.selects w = true → row.agent.code.toNat = w.toNat / 2 ^ 28 ∧ row.op.toNat = w.toNat / 2 ^ 24 % 16)) ∧
  (∀ (w : Word) (i : Instr), decode w = .operation i →
    ∃ row ∈ opcodeMap, row.mnemonic = i.mnemonic ∧ row.agent = i.agent ∧ row.selects w = true)

/-- R74: words are 4 bytes, little-endian; a final partial word is refused with INVALID_WORD. -/
def Obligations.WordsAreLittleEndian : Prop :=
  (∀ (b0 b1 b2 b3 : Byte) (rest : List Byte) (w : Word),
    w.toNat = b0.toNat + 2 ^ 8 * b1.toNat + 2 ^ 16 * b2.toNat + 2 ^ 24 * b3.toNat →
    (∀ i, decode w = .operation i → fetchWord (b0 :: b1 :: b2 :: b3 :: rest) = .operation i rest) ∧
    (decode w = .invalidWord → fetchWord (b0 :: b1 :: b2 :: b3 :: rest) = .invalidWord [b0, b1, b2, b3])) ∧
  (∀ bytes : List Byte, bytes ≠ [] → bytes.length < 4 → fetchWord bytes = .invalidWord bytes)

/-! ## The step -/

/-- When the bytes at the head of the stream decode to a well-formed operation, the step is `exec` of it, at the state with
the word taken (the stream is the model's own: log entry 1). -/
def Obligations.StepRunsDecodedOperation : Prop :=
  ∀ (s : State) (b0 b1 b2 b3 : Byte) (rest : List Byte) (w : Word) (i : Instr),
    s.cfg.admitted = true → s.stream = b0 :: b1 :: b2 :: b3 :: rest →
    w.toNat = b0.toNat + 2 ^ 8 * b1.toNat + 2 ^ 16 * b2.toNat + 2 ^ 24 * b3.toNat →
    decode w = .operation i → i.wellFormed = true →
    step s = exec i { s with stream := rest }

/-- R112, R74, R19: a word that decodes to INVALID_WORD, and a final partial word of one to three bytes, are refused: no step
and no meaning. The word stands at the head of the model's own stream (log entry 1), and the refusal carries its bytes (log
entry 15): both are the model's choice. -/
def Obligations.InvalidWordRefused : Prop :=
  (∀ (s : State) (b0 b1 b2 b3 : Byte) (rest : List Byte) (w : Word),
    s.cfg.admitted = true → s.stream = b0 :: b1 :: b2 :: b3 :: rest →
    w.toNat = b0.toNat + 2 ^ 8 * b1.toNat + 2 ^ 16 * b2.toNat + 2 ^ 24 * b3.toNat →
    decode w = .invalidWord → step s = .refused (.invalidWord [b0, b1, b2, b3])) ∧
  (∀ s : State, s.cfg.admitted = true → s.stream ≠ [] → s.stream.length < 4 →
    step s = .refused (.invalidWord s.stream))

/-- R14: which configurations are admitted, and that any other is refused with BAD_CONFIG. -/
def Obligations.ConfigurationsAdmitted : Prop :=
  (∀ c : Config, c.admitted = true ↔
    1 ≤ c.modes ∧ c.modes ≤ 256 ∧ 1 ≤ c.capacity ∧ c.capacity ≤ 65535 ∧ 1 ≤ c.clockResUs.toNat ∧
      c.modeReset < c.modes ∧ c.modeTable.length = c.modes ∧
      ∀ p, WaveformSpec.enabled p ∈ c.modeTable → c.clockResUs.toNat < p.toNat) ∧
  (∀ s : State, s.cfg.admitted = false → step s = .refused .badConfig)

/-- R77: a step-by-step run of the byte stream of an interleaving is that interleaving: the state after it is the result
of applying its operations one after another. That the interleaving is a stream in the state is the model's choice (log
entry 1). -/
def Obligations.StreamRunsTheInterleaving : Prop :=
  ∀ (s t : State) (is : List Instr) (rest : List Byte),
    s.cfg.admitted = true → Path s is t →
    Sys2Proof.core.run is.length { s with stream := encodeStream is ++ rest } = .next { t with stream := rest }

/-! ## What each operation does -/

/-- R196, R197: PIN_SET. -/
def Obligations.PinSetRaisesConfiguredEdges : Prop :=
  encode (.pinSet false) = 0x00000000#32 ∧ encode (.pinSet true) = 0x00000001#32 ∧
  ∀ (s : State) (level : Bool),
    enabled (.pinSet level) s = true ∧
    let sel := s.cfg.edgeSel
    let configured :=
      (s.inLevel = false ∧ level = true ∧ (sel = .rising ∨ sel = .both)) ∨
      (s.inLevel = true ∧ level = false ∧ (sel = .falling ∨ sel = .both))
    (configured → s.cfg.irqCoalesce = false →
      exec (.pinSet level) s = .next { s with inLevel := level, irqPending := s.irqPending + 1 }) ∧
    (configured → s.cfg.irqCoalesce = true →
      exec (.pinSet level) s = .next { s with inLevel := level, irqPending := 1 }) ∧
    (¬ configured → exec (.pinSet level) s = .next { s with inLevel := level })

/-- R199: CLK_ADV, with the refusal of R200 and its limit. -/
def Obligations.ClkAdvMovesTheClock : Prop :=
  (∀ delta : BitVec 24, (encode (.clkAdv delta)).toNat = 0x01000000 + delta.toNat) ∧
  ∀ (s : State) (delta : BitVec 24),
    enabled (.clkAdv delta) s = true ∧
    (s.now.toNat + delta.toNat ≤ 2 ^ 64 - 2 ^ 33 →
      exec (.clkAdv delta) s = .next { s with now := BitVec.ofNat 64 (s.now.toNat + delta.toNat) }) ∧
    (2 ^ 64 - 2 ^ 33 < s.now.toNat + delta.toNat →
      exec (.clkAdv delta) s = .refused (.clockOverflow s.now delta))

/-- R203 with R201 and R246: RESET, field by field; the pin and the clock keep their values, the history gets the record, and
the parameters do not change (R202). `ctl_event` has no value after it. That RESET leaves the stream of words still to be
taken is the model's choice (log entry 1). -/
def Obligations.ResetGivesTheResetState : Prop :=
  encode .reset = 0x02000000#32 ∧
  ∀ s : State,
    enabled .reset s = true ∧
    exec .reset s = .next {
      cfg := s.cfg, stream := s.stream, inLevel := s.inLevel, now := s.now
      led := false, buz := false, irqPending := 0, debValid := false, debLast := 0, fifo := [], dropCount := 0
      lastOutcome := .none, mode := BitVec.ofNat 8 s.cfg.modeReset, task := .pop, ctl := none, pulseT0 := 0
      wgEn := false, wgPeriod := 0, wgDue := 0, wgPhase := false, reconfErr := false
      hist := s.hist ++ [.reset s.now] }

/-- R204, R67, R70: BUS_RD answers the register with OK at an aligned offset, 0 with ERR at a misaligned one, and writes
nothing but its record. -/
def Obligations.BusRdAnswersTheRegister : Prop :=
  (∀ offset : BitVec 11, (encode (.busRd offset)).toNat = 0x03000000 + offset.toNat) ∧
  ∀ (s : State) (offset : BitVec 11),
    enabled (.busRd offset) s = true ∧
    (offset.toNat % 4 = 0 →
      memRead s offset = (portReg s offset, .ok) ∧
      exec (.busRd offset) s = .next { s with hist := s.hist ++ [.read offset (portReg s offset) .ok] }) ∧
    (offset.toNat % 4 ≠ 0 →
      memRead s offset = (0, .err) ∧
      exec (.busRd offset) s = .next { s with hist := s.hist ++ [.read offset 0 .err] })

/-- R205, R69: BUS_WR is answered ERR at every offset and writes nothing but its record. -/
def Obligations.BusWrAnswersErr : Prop :=
  (∀ offset : BitVec 11, (encode (.busWr offset)).toNat = 0x04000000 + offset.toNat) ∧
  ∀ (s : State) (offset : BitVec 11),
    enabled (.busWr offset) s = true ∧
    exec (.busWr offset) s = .next { s with hist := s.hist ++ [.read offset 0 .err] }

/-- R121 with R131 and R141: EDGE_ISR samples, filters and pushes: rejected inside the settle window of the last accepted
edge; accepted into a channel with room; dropped, with the window moved all the same, at a full channel. -/
def Obligations.EdgeIsrSamplesFiltersAndPushes : Prop :=
  encode .edgeIsr = 0x10000000#32 ∧
  ∀ s : State,
    (enabled .edgeIsr s = true ↔ 0 < s.irqPending) ∧
    let raw : RawEdgeEvent := ⟨s.cfg.pinId, s.inLevel, s.now⟩
    let inWindow := s.debValid = true ∧ (s.now - s.debLast).toNat < s.cfg.settleWindowUs.toNat
    (0 < s.irqPending → inWindow →
      exec .edgeIsr s = .next { s with
        irqPending := s.irqPending - 1, lastOutcome := .rejected, hist := s.hist ++ [.edge raw .rejected] }) ∧
    (0 < s.irqPending → ¬ inWindow → s.fifo.length < s.cfg.capacity →
      exec .edgeIsr s = .next { s with
        irqPending := s.irqPending - 1, debValid := true, debLast := s.now
        fifo := s.fifo ++ [⟨s.now, s.inLevel⟩]
        lastOutcome := .accepted, hist := s.hist ++ [.edge raw .accepted] }) ∧
    (0 < s.irqPending → ¬ inWindow → s.cfg.capacity ≤ s.fifo.length →
      exec .edgeIsr s = .next { s with
        irqPending := s.irqPending - 1, debValid := true, debLast := s.now
        dropCount := if s.dropCount = 0xFFFFFFFF#32 then s.dropCount else s.dropCount + 1
        lastOutcome := .dropped, hist := s.hist ++ [.edge raw .dropped] })

/-- R145, R143: POP takes the oldest event at S_POP. -/
def Obligations.PopTakesTheOldestEvent : Prop :=
  encode .pop = 0x20000000#32 ∧
  ∀ s : State,
    (enabled .pop s = true ↔ s.task = .pop ∧ 0 < s.fifo.length) ∧
    ∀ ev rest, s.task = .pop → s.fifo = ev :: rest →
      exec .pop s = .next { s with
        fifo := rest, ctl := some ev, task := .advance, hist := s.hist ++ [.pop ev] }

/-- R158: ADVANCE. -/
def Obligations.AdvanceStepsTheMode : Prop :=
  encode .advance = 0x21000000#32 ∧
  ∀ s : State,
    (enabled .advance s = true ↔ s.task = .advance) ∧
    (s.task = .advance →
      exec .advance s = .next { s with
        mode := BitVec.ofNat 8 ((s.mode.toNat + 1) % s.cfg.modes), task := .pulseOn })

/-- R186: PULSE_ON. -/
def Obligations.PulseOnRaisesTheBuzzer : Prop :=
  encode .pulseOn = 0x22000000#32 ∧
  ∀ s : State,
    (enabled .pulseOn s = true ↔ s.task = .pulseOn) ∧
    (s.task = .pulseOn →
      exec .pulseOn s = .next { s with
        buz := true, pulseT0 := s.now, task := .pulseHold, hist := s.hist ++ [.out .buz true s.now] })

/-- R187: PULSE_OFF, once the duration has elapsed. -/
def Obligations.PulseOffLowersTheBuzzer : Prop :=
  encode .pulseOff = 0x23000000#32 ∧
  ∀ s : State,
    (enabled .pulseOff s = true ↔
      s.task = .pulseHold ∧ s.cfg.pulseDurationUs.toNat ≤ s.now.toNat - s.pulseT0.toNat) ∧
    (s.task = .pulseHold → s.cfg.pulseDurationUs.toNat ≤ s.now.toNat - s.pulseT0.toNat →
      exec .pulseOff s = .next { s with
        buz := false, task := .reconf, hist := s.hist ++ [.out .buz false s.now] })

/-- R171 with R167: RECONF looks up the spec of the mode, stops the alarm and drives the LED low whatever it is; a disabled
spec ends there, with either answer of the alarm primitive; an enabled one starts a new alarm, or reports the failed create
and stays Disabled. The lookup is the table's entry (R95). -/
def Obligations.ReconfAppliesTheMode : Prop :=
  encode (.reconf false) = 0x24000000#32 ∧ encode (.reconf true) = 0x24000001#32 ∧
  (∀ (c : Config) (m : Nat) (spec : WaveformSpec), c.modeTable[m]? = some spec → c.specOf m = spec) ∧
  ∀ s : State,
    (∀ fail, enabled (.reconf fail) s = true ↔ s.task = .reconf) ∧
    (∀ fail, s.task = .reconf → s.cfg.specOf s.mode.toNat = .disabled →
      exec (.reconf fail) s = .next { s with
        wgEn := false, wgPeriod := 0, wgDue := 0, wgPhase := false, led := false, task := .pop
        hist := s.hist ++ [.out .led false s.now, .reconf s.mode .disabled true] }) ∧
    (∀ p, s.task = .reconf → s.cfg.specOf s.mode.toNat = .enabled p →
      exec (.reconf false) s = .next { s with
        wgEn := true, wgPeriod := p, wgDue := s.now + p.setWidth 64, wgPhase := false, led := false, task := .pop
        hist := s.hist ++ [.out .led false s.now, .reconf s.mode (.enabled p) true] }) ∧
    (∀ p, s.task = .reconf → s.cfg.specOf s.mode.toNat = .enabled p →
      exec (.reconf true) s = .next { s with
        wgEn := false, wgPeriod := 0, wgDue := 0, wgPhase := false, led := false, task := .pop, reconfErr := true
        hist := s.hist ++ [.out .led false s.now, .errReport .reconfFail, .reconf s.mode (.enabled p) false] })

/-- R175: TICK, up to CLOCK_RES_US before the due time and never earlier. -/
def Obligations.TickTogglesTheLed : Prop :=
  encode .tick = 0x30000000#32 ∧
  ∀ s : State,
    (enabled .tick s = true ↔ s.wgEn = true ∧ s.wgDue.toNat ≤ s.now.toNat + s.cfg.clockResUs.toNat) ∧
    (s.wgEn = true → s.wgDue.toNat ≤ s.now.toNat + s.cfg.clockResUs.toNat →
      exec .tick s = .next { s with
        wgPhase := !s.wgPhase, led := !s.wgPhase, wgDue := s.wgDue + s.wgPeriod.setWidth 64
        hist := s.hist ++ [.out .led (!s.wgPhase) s.now] })

/-- R17, R19 (b): an operation that is not enabled writes nothing. That a hold answers the unchanged state, so that the
other agents go on, is the model's choice (log entry 2). -/
def Obligations.NotEnabledWritesNothing : Prop :=
  ∀ (i : Instr) (s : State), enabled i s = false → exec i s = .next s

/-- R19, R215: no operation faults, and only CLK_ADV above the clock limit is refused. -/
def Obligations.OnlyTheClockLimitRefuses : Prop :=
  ∀ (i : Instr) (s : State),
    (∀ f, exec i s ≠ .fault f) ∧
    (∀ r, exec i s = .refused r →
      ∃ delta, i = .clkAdv delta ∧ clockLimit < s.now.toNat + delta.toNat ∧ r = .clockOverflow s.now delta)

/-! ## Frames -/

/-- What the environment's operations leave unchanged (R78): PIN_SET writes the level and the pending count, CLK_ADV the
clock, the port accesses the history alone; RESET keeps the pin, the clock, the parameters and the earlier history. That
these operations, RESET among them, leave the stream of words still to be taken is the model's choice (log entry 1). -/
def Obligations.EnvironmentFrame : Prop :=
  ∀ s t : State,
    (∀ level, exec (.pinSet level) s = .next t → t = { s with inLevel := t.inLevel, irqPending := t.irqPending }) ∧
    (∀ delta, exec (.clkAdv delta) s = .next t → t = { s with now := t.now }) ∧
    (∀ offset, exec (.busRd offset) s = .next t → t = { s with hist := t.hist }) ∧
    (∀ offset, exec (.busWr offset) s = .next t → t = { s with hist := t.hist }) ∧
    (exec .reset s = .next t →
      t.cfg = s.cfg ∧ t.stream = s.stream ∧ t.inLevel = s.inLevel ∧ t.now = s.now ∧ s.hist <+: t.hist)

/-- What the interrupt contexts leave unchanged (R121, R175, R228): EDGE_ISR and TICK touch nothing of the TASK agent, and
they write disjoint fields but for the history. That they leave the stream is the model's choice (log entry 1). -/
def Obligations.InterruptFrame : Prop :=
  ∀ s t : State,
    (exec .edgeIsr s = .next t → t = { s with
      irqPending := t.irqPending, debValid := t.debValid, debLast := t.debLast, fifo := t.fifo
      dropCount := t.dropCount, lastOutcome := t.lastOutcome, hist := t.hist }) ∧
    (exec .tick s = .next t → t = { s with
      wgPhase := t.wgPhase, led := t.led, wgDue := t.wgDue, hist := t.hist })

/-- What the TASK agent's operations leave unchanged (R145, R158, R186, R187, R171). That they leave the stream is the
model's choice (log entry 1). -/
def Obligations.TaskFrame : Prop :=
  ∀ s t : State,
    (exec .pop s = .next t → t = { s with fifo := t.fifo, ctl := t.ctl, task := t.task, hist := t.hist }) ∧
    (exec .advance s = .next t → t = { s with mode := t.mode, task := t.task }) ∧
    (exec .pulseOn s = .next t →
      t = { s with buz := t.buz, pulseT0 := t.pulseT0, task := t.task, hist := t.hist }) ∧
    (exec .pulseOff s = .next t → t = { s with buz := t.buz, task := t.task, hist := t.hist }) ∧
    (∀ fail, exec (.reconf fail) s = .next t → t = { s with
      wgEn := t.wgEn, wgPeriod := t.wgPeriod, wgDue := t.wgDue, wgPhase := t.wgPhase, led := t.led
      reconfErr := t.reconfErr, task := t.task, hist := t.hist })

/-! ## The status port -/

/-- R47 with the codes of R37 and R59: STATUS field by field, its value after RESET, and that no write through the port changes what it reads. -/
def Obligations.StatusRegister : Prop :=
  (∀ s : State, ∃ w, memRead s 0x000#11 = (w, .ok) ∧
    w.getLsbD 0 = s.led ∧ w.getLsbD 1 = s.buz ∧ w.getLsbD 2 = s.wgEn ∧ w.getLsbD 3 = s.reconfErr ∧
    w.getLsbD 4 = s.inLevel ∧ w.getLsbD 5 = s.debValid ∧
    (w.toNat / 2 ^ 6 % 4 = match s.lastOutcome with
      | .none => 0
      | .accepted => 1
      | .rejected => 2
      | .dropped => 3) ∧
    (w.toNat / 2 ^ 8 % 8 = match s.task with
      | .pop => 0
      | .advance => 1
      | .pulseOn => 2
      | .pulseHold => 3
      | .reconf => 4) ∧
    w.getLsbD 11 = s.ctl.isSome ∧ w.toNat / 2 ^ 12 % 16 = 0 ∧ w.toNat / 2 ^ 16 % 256 = s.mode.toNat ∧
    w.toNat / 2 ^ 24 = 0) ∧
  (∀ s t : State, exec .reset s = .next t → s.cfg.admitted = true →
    memRead t 0x000#11 =
      (BitVec.ofNat 32 (s.cfg.modeReset * 2 ^ 16 + if s.inLevel then 2 ^ 4 else 0), .ok)) ∧
  (∀ (s t : State) (offset : BitVec 11), exec (.busWr offset) s = .next t → ∀ a, portReg t a = portReg s a)

/-- R48 to R55: the channel, counter, clock, alarm and pulse registers, in any state whose channel and configuration are
within their bounds, and their values after RESET. -/
def Obligations.StateRegisters : Prop :=
  (∀ s : State, s.fifo.length ≤ s.cfg.capacity → s.cfg.capacity ≤ 65535 →
    ∃ fs dc ip dl dh nl nh wp wl wh pl ph : Word,
      memRead s 0x004#11 = (fs, .ok) ∧ fs.toNat = s.cfg.capacity * 2 ^ 16 + s.fifo.length ∧
      memRead s 0x008#11 = (dc, .ok) ∧ dc = s.dropCount ∧
      memRead s 0x00C#11 = (ip, .ok) ∧ ip.toNat = min s.irqPending (2 ^ 32 - 1) ∧
      memRead s 0x010#11 = (dl, .ok) ∧ memRead s 0x014#11 = (dh, .ok) ∧ dh.toNat * 2 ^ 32 + dl.toNat = s.debLast.toNat ∧
      memRead s 0x018#11 = (nl, .ok) ∧ memRead s 0x01C#11 = (nh, .ok) ∧ nh.toNat * 2 ^ 32 + nl.toNat = s.now.toNat ∧
      memRead s 0x020#11 = (wp, .ok) ∧ wp = s.wgPeriod ∧
      memRead s 0x024#11 = (wl, .ok) ∧ memRead s 0x028#11 = (wh, .ok) ∧ wh.toNat * 2 ^ 32 + wl.toNat = s.wgDue.toNat ∧
      memRead s 0x02C#11 = (pl, .ok) ∧ memRead s 0x030#11 = (ph, .ok) ∧
      ph.toNat * 2 ^ 32 + pl.toNat = s.pulseT0.toNat) ∧
  (∀ s : State, BlockInv s → s.wgEn = false → memRead s 0x020#11 = (0, .ok)) ∧
  (∀ s t : State, exec .reset s = .next t →
    (s.cfg.capacity ≤ 65535 → memRead t 0x004#11 = (BitVec.ofNat 32 (s.cfg.capacity * 2 ^ 16), .ok)) ∧
    (∀ a ∈ [0x008#11, 0x00C#11, 0x010#11, 0x014#11, 0x020#11, 0x024#11, 0x028#11, 0x02C#11, 0x030#11],
      memRead t a = (0, .ok)) ∧
    memRead t 0x018#11 = memRead s 0x018#11 ∧ memRead t 0x01C#11 = memRead s 0x01C#11)

/-- R56: the parameter registers, which no operation changes. -/
def Obligations.ParameterRegisters : Prop :=
  (∀ s : State, s.cfg.admitted = true →
    memRead s 0x034#11 = (s.cfg.settleWindowUs, .ok) ∧
    memRead s 0x038#11 = (s.cfg.pulseDurationUs, .ok) ∧
    memRead s 0x03C#11 = (BitVec.ofNat 32 (s.cfg.modeReset * 2 ^ 16 + s.cfg.modes), .ok) ∧
    memRead s 0x040#11 = (s.cfg.clockResUs, .ok) ∧
    memRead s 0x044#11 = (BitVec.ofNat 32 (s.cfg.pinId.toNat * 2 ^ 8 + (if s.cfg.irqCoalesce then 4 else 0) +
      match s.cfg.edgeSel with
      | .rising => 0
      | .falling => 1
      | .both => 2), .ok)) ∧
  (∀ (s t : State) (i : Instr), exec i s = .next t →
    ∀ a ∈ [0x034#11, 0x038#11, 0x03C#11, 0x040#11, 0x044#11], memRead t a = memRead s a)

/-- R57, R94: the MODE_TABLE window. -/
def Obligations.ModeTableWindow : Prop :=
  ∀ (s : State) (i : Nat), i < 256 → s.cfg.admitted = true →
    (∀ p, s.cfg.modeTable[i]? = some (.enabled p) → memRead s (BitVec.ofNat 11 (0x400 + 4 * i)) = (p, .ok)) ∧
    (s.cfg.modeTable[i]? = some .disabled → memRead s (BitVec.ofNat 11 (0x400 + 4 * i)) = (0, .ok)) ∧
    (s.cfg.modes ≤ i → memRead s (BitVec.ofNat 11 (0x400 + 4 * i)) = (0, .ok))

/-- R58: every other aligned offset reads 0 with OK, and so do the reserved bits of the registers that have any. -/
def Obligations.ReservedOffsetsReadZero : Prop :=
  (∀ (s : State) (a : BitVec 11), a.toNat % 4 = 0 →
    (0x048 ≤ a.toNat → a.toNat ≤ 0x3FC → memRead s a = (0, .ok)) ∧
    (0x400 + 4 * s.cfg.modes ≤ a.toNat → memRead s a = (0, .ok))) ∧
  ∀ s : State, ∃ status modes edgeCfg : Word,
    memRead s 0x000#11 = (status, .ok) ∧ status.toNat / 2 ^ 12 % 16 = 0 ∧ status.toNat / 2 ^ 24 = 0 ∧
    memRead s 0x03C#11 = (modes, .ok) ∧ modes.toNat / 2 ^ 24 = 0 ∧
    memRead s 0x044#11 = (edgeCfg, .ok) ∧ edgeCfg.toNat / 2 ^ 3 % 32 = 0 ∧ edgeCfg.toNat / 2 ^ 16 = 0

/-- R73: a port read has no side effect on what the port reads, so it answers the same when repeated. -/
def Obligations.PortReadsAreIdempotent : Prop :=
  ∀ (s t : State) (a : BitVec 11), exec (.busRd a) s = .next t →
    (∀ b, memRead t b = memRead s b) ∧
    exec (.busRd a) t = .next { t with hist := t.hist ++ [.read a (memRead s a).1 (memRead s a).2] }

/-- R75, R110: register names and offsets are one-to-one. -/
def Obligations.RegisterNamesAreOneToOne : Prop :=
  (∀ r : PortReg, r.offset.toNat % 4 = 0 ∧ PortReg.ofOffset r.offset = some r) ∧
  (∀ (a : BitVec 11) (r : PortReg), a.toNat % 4 = 0 → PortReg.ofOffset a = some r → r.offset = a)

/-- R90, R91, R94: the packed layouts are one-to-one, with the fields where the rules put them. -/
def Obligations.PackedLayouts : Prop :=
  (∀ e : RawEdgeEvent, RawEdgeEvent.unpack e.pack = e ∧
    e.pack.toNat = e.pin.toNat * 2 ^ 65 + (if e.level then 2 ^ 64 else 0) + e.tsUs.toNat) ∧
  (∀ e : AcceptedEvent, AcceptedEvent.unpack e.pack = e ∧
    e.pack.toNat = (if e.level then 2 ^ 64 else 0) + e.tsUs.toNat) ∧
  (∀ w : Word, (WaveformSpec.unpack w).pack = w) ∧
  (∀ spec : WaveformSpec, spec ≠ .enabled 0 → WaveformSpec.unpack spec.pack = spec)

/-! ## Invariants -/

/-- R247: the power-on state meets the invariants and the history laws, for both draws and every admitted configuration; the
model's reset state is one of them (its draws and its EDGE_SEL are the model's choice: log entries 5, 6). -/
def Obligations.PowerOnMeetsTheInvariants : Prop :=
  (∀ s : State, Start s → BlockInv s ∧
    ChannelInOrder s ∧ DebounceSpaced s ∧ DropsCounted s ∧ ModeCountsEvents s ∧ PulsesHeld s ∧ LedShowsLastWrite s) ∧
  State.reset = State.powerOn (Config.default .rising) false 0 [] ∧ Start State.reset

/-- Every step keeps the invariants of R45, from every state that has them. -/
def Obligations.StepKeepsTheInvariants : Prop :=
  ∀ s t : State, BlockInv s → step s = .next t → BlockInv t

/-- R45: the invariants hold in every reachable state of an admitted configuration, under every interleaving. -/
def Obligations.ReachableStatesMeetTheInvariants : Prop :=
  ∀ s : State, Reachable s → BlockInv s

/-- R146 (a): every step keeps the channel in order. -/
def Obligations.StepKeepsTheChannelInOrder : Prop :=
  ∀ s t : State, ChannelInOrder s → step s = .next t → ChannelInOrder t

/-- R136 (a): every step keeps the edges the filter passes a settle window apart. -/
def Obligations.StepKeepsEdgesSpaced : Prop :=
  ∀ s t : State, BlockInv s → DebounceSpaced s → step s = .next t → DebounceSpaced t

/-- R36, R142: every step keeps the drop counter the saturated count of dropped edges. -/
def Obligations.StepKeepsDropsCounted : Prop :=
  ∀ s t : State, DropsCounted s → step s = .next t → DropsCounted t

/-- R160 (b): every step keeps the mode the count of events serviced. -/
def Obligations.StepKeepsTheModeCount : Prop :=
  ∀ s t : State, BlockInv s → ModeCountsEvents s → step s = .next t → ModeCountsEvents t

/-- R187, R188: every step keeps the pulses separate and at least the duration long. -/
def Obligations.StepKeepsPulsesHeld : Prop :=
  ∀ s t : State, BlockInv s → PulsesHeld s → step s = .next t → PulsesHeld t

/-- R43: every step keeps the LED at the last value the history says was written. -/
def Obligations.StepKeepsLedWrites : Prop :=
  ∀ s t : State, LedShowsLastWrite s → step s = .next t → LedShowsLastWrite t

/-! ## The whole machine -/

/-- R198: along every interleaving the clock moves by the CLK_ADV increments and by nothing else. -/
def Obligations.OnlyClkAdvMovesTheClock : Prop :=
  ∀ (s t : State) (is : List Instr), s.now.toNat ≤ clockLimit → Path s is t →
    t.now.toNat = s.now.toNat + clockAdvance is

/-- R43, R202: a step appends to the history and clears nothing, and leaves the parameters as they were. -/
def Obligations.HistoryGrowsAndParametersStay : Prop :=
  ∀ s t : State, step s = .next t → s.hist <+: t.hist ∧ t.cfg = s.cfg

/-- R156: in each position exactly one TASK operation is the agent's next one, it is enabled when the table says so, and it
leads to the table's next position. -/
def Obligations.TaskLoop : Prop :=
  ∀ (s : State) (i : Instr), i.agent = .task →
    (enabled i s = true ↔
      (i.mnemonic = .POP ∧ s.task = .pop ∧ 0 < s.fifo.length) ∨
      (i.mnemonic = .ADVANCE ∧ s.task = .advance) ∨
      (i.mnemonic = .PULSE_ON ∧ s.task = .pulseOn) ∨
      (i.mnemonic = .PULSE_OFF ∧ s.task = .pulseHold ∧
        s.cfg.pulseDurationUs.toNat ≤ s.now.toNat - s.pulseT0.toNat) ∨
      (i.mnemonic = .RECONF ∧ s.task = .reconf)) ∧
    (enabled i s = true → ∃ t, exec i s = .next t ∧ t.task =
      match s.task with
      | .pop => .advance
      | .advance => .pulseOn
      | .pulseOn => .pulseHold
      | .pulseHold => .reconf
      | .reconf => .pop)

/-- R146 (b), R142: pushes with no pop between them keep the events that fit, oldest first, and count the rest. -/
def Obligations.PushesKeepTheOldest : Prop :=
  ∀ (evs : List AcceptedEvent) (s : State), s.fifo.length ≤ s.cfg.capacity →
    pushAll evs s = { s with
      fifo := (s.fifo ++ evs).take s.cfg.capacity
      dropCount := BitVec.ofNat 32
        (min (s.dropCount.toNat + (s.fifo.length + evs.length - s.cfg.capacity)) (2 ^ 32 - 1)) }

/-- R160 (a), (b): along every interleaving without RESET the mode moves by one per ADVANCE, modulo N, so after N of them
it is back. -/
def Obligations.ModeCyclesWithPeriodN : Prop :=
  ∀ (s t : State) (is : List Instr), BlockInv s → Path s is t → Instr.reset ∉ is →
    t.mode.toNat = (s.mode.toNat + is.count .advance) % s.cfg.modes ∧
    (is.count .advance = s.cfg.modes → t.mode = s.mode)

/-- R121 corner case (e), R257: of two invocations at one clock value the second is rejected, whenever the window is not
empty. Anything but CLK_ADV (the clock value) and RESET (which empties the window) may run between them, more invocations
among it. -/
def Obligations.BacklogIsFilteredToTheFirst : Prop :=
  ∀ (s t u v : State) (is : List Instr), 0 < s.cfg.settleWindowUs.toNat →
    Takes .edgeIsr s t → Path t is u → (∀ delta, Instr.clkAdv delta ∉ is) → Instr.reset ∉ is → Takes .edgeIsr u v →
    v.lastOutcome = .rejected ∧ v.fifo = u.fifo ∧ v.dropCount = u.dropCount ∧
    v.debValid = u.debValid ∧ v.debLast = u.debLast

/-- R172, R176: after a RECONF no TICK is taken before the clock advances. -/
def Obligations.NoTickBeforeTheClockAdvances : Prop :=
  ∀ (s t u : State) (fail : Bool) (is : List Instr), BlockInv s → Takes (.reconf fail) s t → Path t is u →
    (∀ delta, Instr.clkAdv delta ∉ is) → Instr.tick ∉ is

/-- R176: at one clock value only finitely many TICKs can be taken in a row. -/
def Obligations.TicksAtOneClockValueAreBounded : Prop :=
  ∀ (s t : State) (k : Nat), BlockInv s → Path s (List.replicate k .tick) t →
    k ≤ (s.now.toNat + s.cfg.clockResUs.toNat - s.wgDue.toNat) / s.wgPeriod.toNat + 1

/-- R177: with no RECONF and no RESET between, the due time is the first one plus one period per TICK taken, so the next
TICK is enabled exactly from that time less CLOCK_RES_US. -/
def Obligations.DueTimesAreWholePeriods : Prop :=
  ∀ (s t : State) (is : List Instr), BlockInv s → s.wgEn = true → Path s is t →
    Instr.reset ∉ is → (∀ fail, Instr.reconf fail ∉ is) →
    t.wgEn = true ∧ t.wgPeriod = s.wgPeriod ∧
    t.wgDue.toNat = s.wgDue.toNat + is.count .tick * s.wgPeriod.toNat ∧
    (enabled .tick t = true ↔
      s.wgDue.toNat + is.count .tick * s.wgPeriod.toNat ≤ t.now.toNat + s.cfg.clockResUs.toNat)

/-- R178: while the generator is Disabled the output never toggles. -/
def Obligations.DisabledNeverToggles : Prop :=
  ∀ (s t : State) (is : List Instr), BlockInv s → s.wgEn = false → Path s is t → (∀ fail, Instr.reconf fail ∉ is) →
    Instr.tick ∉ is ∧ t.led = false ∧ t.wgEn = false

/-- R226: EDGE_ISR and TICK commute, but for the order of their history records: where both are enabled they can be taken
one after the other, and whichever is taken first, the other order leads to the same state. -/
def Obligations.EdgeIsrCommutesWithTick : Prop :=
  ∀ s : State,
    (enabled .edgeIsr s = true → enabled .tick s = true →
      (∃ t u, Takes .edgeIsr s t ∧ Takes .tick t u) ∧ ∃ t u, Takes .tick s t ∧ Takes .edgeIsr t u) ∧
    (∀ t u, Takes .edgeIsr s t → Takes .tick t u →
      ∃ t' u', Takes .tick s t' ∧ Takes .edgeIsr t' u' ∧ { u' with hist := u.hist } = u ∧ u'.hist.Perm u.hist) ∧
    (∀ t u, Takes .tick s t → Takes .edgeIsr t u →
      ∃ t' u', Takes .edgeIsr s t' ∧ Takes .tick t' u' ∧ { u' with hist := u.hist } = u ∧ u'.hist.Perm u.hist)

/-- R157, R39, R43: no operation's effect depends on the fields of an event in the channel or with the controller, nor on
the history: states that differ in nothing else go on differing in nothing else. -/
def Obligations.EventFieldsAndHistoryAreNotRead : Prop :=
  ∀ (i : Instr) (s s' : State), s.blind = s'.blind →
    enabled i s = enabled i s' ∧
    (∀ t, exec i s = .next t → ∃ t', exec i s' = .next t' ∧ t.blind = t'.blind) ∧
    (∀ r, exec i s = .refused r → exec i s' = .refused r)

/-- R253 for NOW: whatever runs between the three reads, if the two HI reads agree then HI and LO together are the clock's
value at the LO read. -/
def Obligations.HiLoHiReadsTheClock : Prop :=
  ∀ (s₁ s₂ s₃ : State) (is₁ is₂ : List Instr) (hi lo : Word), s₁.now.toNat ≤ clockLimit →
    Path s₁ is₁ s₂ → Path s₂ is₂ s₃ →
    memRead s₁ PortReg.nowHi.offset = (hi, .ok) → memRead s₂ PortReg.nowLo.offset = (lo, .ok) →
    memRead s₃ PortReg.nowHi.offset = (hi, .ok) →
    hi.toNat * 2 ^ 32 + lo.toNat = s₂.now.toNat

/-- R259 as R187 corrects it (log entry 14): only ENV can move exactly where no edge is pending, no TICK is due, and the
TASK agent waits at an empty channel or in a pulse whose duration has not elapsed. -/
def Obligations.WhenOnlyTheEnvironmentMoves : Prop :=
  ∀ s : State, OnlyEnvEnabled s ↔
    s.irqPending = 0 ∧
    (s.wgEn = false ∨ s.now.toNat + s.cfg.clockResUs.toNat < s.wgDue.toNat) ∧
    ((s.task = .pop ∧ s.fifo = []) ∨
      (s.task = .pulseHold ∧ s.now.toNat - s.pulseT0.toNat < s.cfg.pulseDurationUs.toNat))

/-- R24, R222: under weak fairness a pending edge invocation is serviced, unless a RESET discards it. -/
def Obligations.PendingEdgeIsServiced : Prop :=
  ∀ (r : Run) (n : Nat), r.WeaklyFair → 0 < (r.state n).irqPending → (∀ k, n ≤ k → r.op k ≠ .reset) →
    ∃ k, n ≤ k ∧ r.op k = .edgeIsr
end

