-- ==== Sys2Proof/Laws/Decode.lean ====
section
/-! SUPPORT. The fields of an operation word as numbers, and the decoder's and the encoder's spec lemmas. -/

namespace Sys2Proof

theorem agField_toNat (w : Word) : (agField w).toNat = w.toNat / 2 ^ 28 := by
  have := w.isLt
  simp [agField, BitVec.extractLsb'_toNat, Nat.shiftRight_eq_div_pow]
  omega

theorem opField_toNat (w : Word) : (opField w).toNat = w.toNat / 2 ^ 24 % 16 := by
  simp [opField, BitVec.extractLsb'_toNat, Nat.shiftRight_eq_div_pow]

theorem immField_toNat (w : Word) : (immField w).toNat = w.toNat % 2 ^ 24 := by
  simp [immField, BitVec.extractLsb'_toNat]

theorem formatZ_iff (imm : BitVec 24) : formatZ imm = true ↔ imm.toNat = 0 := by
  simp [formatZ, ← BitVec.toNat_inj]

theorem formatBit_iff (imm : BitVec 24) : formatBit imm = true ↔ imm.toNat < 2 := by
  have := imm.isLt
  simp [formatBit, ← BitVec.toNat_inj, BitVec.extractLsb'_toNat, Nat.shiftRight_eq_div_pow]
  omega

theorem formatD_iff (imm : BitVec 24) : formatD imm = true ↔ imm.toNat ≠ 0 := by
  simp [formatD, ← BitVec.toNat_inj]

theorem formatA_iff (imm : BitVec 24) : formatA imm = true ↔ imm.toNat < 2 ^ 11 := by
  have := imm.isLt
  simp [formatA, ← BitVec.toNat_inj, BitVec.extractLsb'_toNat, Nat.shiftRight_eq_div_pow]
  omega

theorem bitOperand_eq (imm : BitVec 24) (h : imm.toNat < 2) : bitOperand imm = decide (imm.toNat = 1) := by
  have : imm.toNat = 0 ∨ imm.toNat = 1 := by omega
  rcases this with h | h <;> simp [bitOperand, BitVec.getLsbD, h]

theorem offsetOperand_toNat (imm : BitVec 24) : (offsetOperand imm).toNat = imm.toNat % 2 ^ 11 := by
  simp [offsetOperand, BitVec.extractLsb'_toNat]

theorem constrained_eq_operation {ok : Bool} {i j : Instr} :
    constrained ok i = .operation j ↔ ok = true ∧ i = j := by
  cases ok <;> simp [constrained]

theorem constrained_eq_invalidWord {ok : Bool} {i : Instr} : constrained ok i = .invalidWord ↔ ok = false := by
  cases ok <;> simp [constrained]

/-- The encoder as arithmetic: the three fields of R98 side by side. -/
theorem encode_toNat (i : Instr) :
    (encode i).toNat = i.agent.code.toNat * 2 ^ 28 + i.op.toNat * 2 ^ 24 + i.imm.toNat := by
  have h1 := i.agent.code.isLt
  have h2 := i.op.isLt
  have h3 := i.imm.isLt
  have ea : (i.agent.code.toNat % 2 ^ 32) <<< 28 % 2 ^ 32 = i.agent.code.toNat <<< 28 := by
    simp only [Nat.shiftLeft_eq]
    omega
  have eo : (i.op.toNat % 2 ^ 32) <<< 24 % 2 ^ 32 = i.op.toNat <<< 24 := by
    simp only [Nat.shiftLeft_eq]
    omega
  have ei : i.imm.toNat % 2 ^ 32 = i.imm.toNat := by omega
  simp only [encode, BitVec.toNat_or, BitVec.toNat_shiftLeft, BitVec.toNat_setWidth, ea, eo, ei]
  have e1 : i.op.toNat <<< 24 ||| i.imm.toNat = i.op.toNat * 2 ^ 24 + i.imm.toNat := by
    rw [← Nat.shiftLeft_add_eq_or_of_lt h3, Nat.shiftLeft_eq]
  rw [Nat.or_assoc, e1, ← Nat.shiftLeft_add_eq_or_of_lt (by omega), Nat.shiftLeft_eq]
  omega

theorem bytesWord_toNat (b0 b1 b2 b3 : Byte) :
    (bytesWord b0 b1 b2 b3).toNat = b0.toNat + 2 ^ 8 * b1.toNat + 2 ^ 16 * b2.toNat + 2 ^ 24 * b3.toNat := by
  have h0 := b0.isLt
  have h1 := b1.isLt
  have h2 := b2.isLt
  have h3 := b3.isLt
  simp only [bytesWord, BitVec.toNat_append]
  rw [← Nat.shiftLeft_add_eq_or_of_lt (by omega), ← Nat.shiftLeft_add_eq_or_of_lt (by omega),
    ← Nat.shiftLeft_add_eq_or_of_lt (by omega)]
  simp only [Nat.shiftLeft_eq]
  omega

theorem wordByte_toNat (w : Word) (k : Nat) : (wordByte w k).toNat = w.toNat / 2 ^ (8 * k) % 256 := by
  simp [wordByte, BitVec.extractLsb'_toNat, Nat.shiftRight_eq_div_pow]

/-- Storing a word and reading it back. -/
theorem bytesWord_wordBytes (w : Word) :
    bytesWord (wordByte w 0) (wordByte w 1) (wordByte w 2) (wordByte w 3) = w := by
  have := w.isLt
  apply BitVec.eq_of_toNat_eq
  simp only [bytesWord_toNat, wordByte_toNat]
  omega

theorem fetchWord_wordBytes (w : Word) (rest : List Byte) :
    fetchWord (wordBytes w ++ rest) =
      match decode w with
      | .operation i => .operation i rest
      | .invalidWord => .invalidWord (wordBytes w) := by
  cases h : decode w <;>
    simp only [wordBytes, List.cons_append, List.nil_append, fetchWord, bytesWord_wordBytes, h]

end Sys2Proof
end

