-- ==== Sys2Proof/Laws/State.lean ====
section
/-! SUPPORT. One lemma per field per named update of the state, true by unfolding the update once. -/

namespace Sys2Proof.Machine

/-! ## record -/

@[simp] theorem State.record_cfg (s : State) (h : Record) : (s.record h).cfg = s.cfg := rfl
@[simp] theorem State.record_stream (s : State) (h : Record) : (s.record h).stream = s.stream := rfl
@[simp] theorem State.record_inLevel (s : State) (h : Record) : (s.record h).inLevel = s.inLevel := rfl
@[simp] theorem State.record_led (s : State) (h : Record) : (s.record h).led = s.led := rfl
@[simp] theorem State.record_buz (s : State) (h : Record) : (s.record h).buz = s.buz := rfl
@[simp] theorem State.record_now (s : State) (h : Record) : (s.record h).now = s.now := rfl
@[simp] theorem State.record_irqPending (s : State) (h : Record) : (s.record h).irqPending = s.irqPending := rfl
@[simp] theorem State.record_debValid (s : State) (h : Record) : (s.record h).debValid = s.debValid := rfl
@[simp] theorem State.record_debLast (s : State) (h : Record) : (s.record h).debLast = s.debLast := rfl
@[simp] theorem State.record_fifo (s : State) (h : Record) : (s.record h).fifo = s.fifo := rfl
@[simp] theorem State.record_dropCount (s : State) (h : Record) : (s.record h).dropCount = s.dropCount := rfl
@[simp] theorem State.record_lastOutcome (s : State) (h : Record) : (s.record h).lastOutcome = s.lastOutcome := rfl
@[simp] theorem State.record_mode (s : State) (h : Record) : (s.record h).mode = s.mode := rfl
@[simp] theorem State.record_task (s : State) (h : Record) : (s.record h).task = s.task := rfl
@[simp] theorem State.record_ctl (s : State) (h : Record) : (s.record h).ctl = s.ctl := rfl
@[simp] theorem State.record_pulseT0 (s : State) (h : Record) : (s.record h).pulseT0 = s.pulseT0 := rfl
@[simp] theorem State.record_wgEn (s : State) (h : Record) : (s.record h).wgEn = s.wgEn := rfl
@[simp] theorem State.record_wgPeriod (s : State) (h : Record) : (s.record h).wgPeriod = s.wgPeriod := rfl
@[simp] theorem State.record_wgDue (s : State) (h : Record) : (s.record h).wgDue = s.wgDue := rfl
@[simp] theorem State.record_wgPhase (s : State) (h : Record) : (s.record h).wgPhase = s.wgPhase := rfl
@[simp] theorem State.record_reconfErr (s : State) (h : Record) : (s.record h).reconfErr = s.reconfErr := rfl
@[simp] theorem State.record_hist (s : State) (h : Record) : (s.record h).hist = s.hist ++ [h] := rfl

/-! ## raiseEdgeIrq -/

@[simp] theorem State.raiseEdgeIrq_cfg (s : State) : (s.raiseEdgeIrq).cfg = s.cfg := rfl
@[simp] theorem State.raiseEdgeIrq_stream (s : State) : (s.raiseEdgeIrq).stream = s.stream := rfl
@[simp] theorem State.raiseEdgeIrq_inLevel (s : State) : (s.raiseEdgeIrq).inLevel = s.inLevel := rfl
@[simp] theorem State.raiseEdgeIrq_led (s : State) : (s.raiseEdgeIrq).led = s.led := rfl
@[simp] theorem State.raiseEdgeIrq_buz (s : State) : (s.raiseEdgeIrq).buz = s.buz := rfl
@[simp] theorem State.raiseEdgeIrq_now (s : State) : (s.raiseEdgeIrq).now = s.now := rfl
@[simp] theorem State.raiseEdgeIrq_irqPending (s : State) : (s.raiseEdgeIrq).irqPending = if s.cfg.irqCoalesce then 1 else s.irqPending + 1 := rfl
@[simp] theorem State.raiseEdgeIrq_debValid (s : State) : (s.raiseEdgeIrq).debValid = s.debValid := rfl
@[simp] theorem State.raiseEdgeIrq_debLast (s : State) : (s.raiseEdgeIrq).debLast = s.debLast := rfl
@[simp] theorem State.raiseEdgeIrq_fifo (s : State) : (s.raiseEdgeIrq).fifo = s.fifo := rfl
@[simp] theorem State.raiseEdgeIrq_dropCount (s : State) : (s.raiseEdgeIrq).dropCount = s.dropCount := rfl
@[simp] theorem State.raiseEdgeIrq_lastOutcome (s : State) : (s.raiseEdgeIrq).lastOutcome = s.lastOutcome := rfl
@[simp] theorem State.raiseEdgeIrq_mode (s : State) : (s.raiseEdgeIrq).mode = s.mode := rfl
@[simp] theorem State.raiseEdgeIrq_task (s : State) : (s.raiseEdgeIrq).task = s.task := rfl
@[simp] theorem State.raiseEdgeIrq_ctl (s : State) : (s.raiseEdgeIrq).ctl = s.ctl := rfl
@[simp] theorem State.raiseEdgeIrq_pulseT0 (s : State) : (s.raiseEdgeIrq).pulseT0 = s.pulseT0 := rfl
@[simp] theorem State.raiseEdgeIrq_wgEn (s : State) : (s.raiseEdgeIrq).wgEn = s.wgEn := rfl
@[simp] theorem State.raiseEdgeIrq_wgPeriod (s : State) : (s.raiseEdgeIrq).wgPeriod = s.wgPeriod := rfl
@[simp] theorem State.raiseEdgeIrq_wgDue (s : State) : (s.raiseEdgeIrq).wgDue = s.wgDue := rfl
@[simp] theorem State.raiseEdgeIrq_wgPhase (s : State) : (s.raiseEdgeIrq).wgPhase = s.wgPhase := rfl
@[simp] theorem State.raiseEdgeIrq_reconfErr (s : State) : (s.raiseEdgeIrq).reconfErr = s.reconfErr := rfl
@[simp] theorem State.raiseEdgeIrq_hist (s : State) : (s.raiseEdgeIrq).hist = s.hist := rfl

/-! ## driveLed -/

@[simp] theorem State.driveLed_cfg (s : State) (v : Bool) : (s.driveLed v).cfg = s.cfg := rfl
@[simp] theorem State.driveLed_stream (s : State) (v : Bool) : (s.driveLed v).stream = s.stream := rfl
@[simp] theorem State.driveLed_inLevel (s : State) (v : Bool) : (s.driveLed v).inLevel = s.inLevel := rfl
@[simp] theorem State.driveLed_led (s : State) (v : Bool) : (s.driveLed v).led = v := rfl
@[simp] theorem State.driveLed_buz (s : State) (v : Bool) : (s.driveLed v).buz = s.buz := rfl
@[simp] theorem State.driveLed_now (s : State) (v : Bool) : (s.driveLed v).now = s.now := rfl
@[simp] theorem State.driveLed_irqPending (s : State) (v : Bool) : (s.driveLed v).irqPending = s.irqPending := rfl
@[simp] theorem State.driveLed_debValid (s : State) (v : Bool) : (s.driveLed v).debValid = s.debValid := rfl
@[simp] theorem State.driveLed_debLast (s : State) (v : Bool) : (s.driveLed v).debLast = s.debLast := rfl
@[simp] theorem State.driveLed_fifo (s : State) (v : Bool) : (s.driveLed v).fifo = s.fifo := rfl
@[simp] theorem State.driveLed_dropCount (s : State) (v : Bool) : (s.driveLed v).dropCount = s.dropCount := rfl
@[simp] theorem State.driveLed_lastOutcome (s : State) (v : Bool) : (s.driveLed v).lastOutcome = s.lastOutcome := rfl
@[simp] theorem State.driveLed_mode (s : State) (v : Bool) : (s.driveLed v).mode = s.mode := rfl
@[simp] theorem State.driveLed_task (s : State) (v : Bool) : (s.driveLed v).task = s.task := rfl
@[simp] theorem State.driveLed_ctl (s : State) (v : Bool) : (s.driveLed v).ctl = s.ctl := rfl
@[simp] theorem State.driveLed_pulseT0 (s : State) (v : Bool) : (s.driveLed v).pulseT0 = s.pulseT0 := rfl
@[simp] theorem State.driveLed_wgEn (s : State) (v : Bool) : (s.driveLed v).wgEn = s.wgEn := rfl
@[simp] theorem State.driveLed_wgPeriod (s : State) (v : Bool) : (s.driveLed v).wgPeriod = s.wgPeriod := rfl
@[simp] theorem State.driveLed_wgDue (s : State) (v : Bool) : (s.driveLed v).wgDue = s.wgDue := rfl
@[simp] theorem State.driveLed_wgPhase (s : State) (v : Bool) : (s.driveLed v).wgPhase = s.wgPhase := rfl
@[simp] theorem State.driveLed_reconfErr (s : State) (v : Bool) : (s.driveLed v).reconfErr = s.reconfErr := rfl
@[simp] theorem State.driveLed_hist (s : State) (v : Bool) : (s.driveLed v).hist = s.hist ++ [.out .led v s.now] := rfl

/-! ## driveBuz -/

@[simp] theorem State.driveBuz_cfg (s : State) (v : Bool) : (s.driveBuz v).cfg = s.cfg := rfl
@[simp] theorem State.driveBuz_stream (s : State) (v : Bool) : (s.driveBuz v).stream = s.stream := rfl
@[simp] theorem State.driveBuz_inLevel (s : State) (v : Bool) : (s.driveBuz v).inLevel = s.inLevel := rfl
@[simp] theorem State.driveBuz_led (s : State) (v : Bool) : (s.driveBuz v).led = s.led := rfl
@[simp] theorem State.driveBuz_buz (s : State) (v : Bool) : (s.driveBuz v).buz = v := rfl
@[simp] theorem State.driveBuz_now (s : State) (v : Bool) : (s.driveBuz v).now = s.now := rfl
@[simp] theorem State.driveBuz_irqPending (s : State) (v : Bool) : (s.driveBuz v).irqPending = s.irqPending := rfl
@[simp] theorem State.driveBuz_debValid (s : State) (v : Bool) : (s.driveBuz v).debValid = s.debValid := rfl
@[simp] theorem State.driveBuz_debLast (s : State) (v : Bool) : (s.driveBuz v).debLast = s.debLast := rfl
@[simp] theorem State.driveBuz_fifo (s : State) (v : Bool) : (s.driveBuz v).fifo = s.fifo := rfl
@[simp] theorem State.driveBuz_dropCount (s : State) (v : Bool) : (s.driveBuz v).dropCount = s.dropCount := rfl
@[simp] theorem State.driveBuz_lastOutcome (s : State) (v : Bool) : (s.driveBuz v).lastOutcome = s.lastOutcome := rfl
@[simp] theorem State.driveBuz_mode (s : State) (v : Bool) : (s.driveBuz v).mode = s.mode := rfl
@[simp] theorem State.driveBuz_task (s : State) (v : Bool) : (s.driveBuz v).task = s.task := rfl
@[simp] theorem State.driveBuz_ctl (s : State) (v : Bool) : (s.driveBuz v).ctl = s.ctl := rfl
@[simp] theorem State.driveBuz_pulseT0 (s : State) (v : Bool) : (s.driveBuz v).pulseT0 = s.pulseT0 := rfl
@[simp] theorem State.driveBuz_wgEn (s : State) (v : Bool) : (s.driveBuz v).wgEn = s.wgEn := rfl
@[simp] theorem State.driveBuz_wgPeriod (s : State) (v : Bool) : (s.driveBuz v).wgPeriod = s.wgPeriod := rfl
@[simp] theorem State.driveBuz_wgDue (s : State) (v : Bool) : (s.driveBuz v).wgDue = s.wgDue := rfl
@[simp] theorem State.driveBuz_wgPhase (s : State) (v : Bool) : (s.driveBuz v).wgPhase = s.wgPhase := rfl
@[simp] theorem State.driveBuz_reconfErr (s : State) (v : Bool) : (s.driveBuz v).reconfErr = s.reconfErr := rfl
@[simp] theorem State.driveBuz_hist (s : State) (v : Bool) : (s.driveBuz v).hist = s.hist ++ [.out .buz v s.now] := rfl

/-! ## stopAlarm -/

@[simp] theorem State.stopAlarm_cfg (s : State) : (s.stopAlarm).cfg = s.cfg := rfl
@[simp] theorem State.stopAlarm_stream (s : State) : (s.stopAlarm).stream = s.stream := rfl
@[simp] theorem State.stopAlarm_inLevel (s : State) : (s.stopAlarm).inLevel = s.inLevel := rfl
@[simp] theorem State.stopAlarm_led (s : State) : (s.stopAlarm).led = s.led := rfl
@[simp] theorem State.stopAlarm_buz (s : State) : (s.stopAlarm).buz = s.buz := rfl
@[simp] theorem State.stopAlarm_now (s : State) : (s.stopAlarm).now = s.now := rfl
@[simp] theorem State.stopAlarm_irqPending (s : State) : (s.stopAlarm).irqPending = s.irqPending := rfl
@[simp] theorem State.stopAlarm_debValid (s : State) : (s.stopAlarm).debValid = s.debValid := rfl
@[simp] theorem State.stopAlarm_debLast (s : State) : (s.stopAlarm).debLast = s.debLast := rfl
@[simp] theorem State.stopAlarm_fifo (s : State) : (s.stopAlarm).fifo = s.fifo := rfl
@[simp] theorem State.stopAlarm_dropCount (s : State) : (s.stopAlarm).dropCount = s.dropCount := rfl
@[simp] theorem State.stopAlarm_lastOutcome (s : State) : (s.stopAlarm).lastOutcome = s.lastOutcome := rfl
@[simp] theorem State.stopAlarm_mode (s : State) : (s.stopAlarm).mode = s.mode := rfl
@[simp] theorem State.stopAlarm_task (s : State) : (s.stopAlarm).task = s.task := rfl
@[simp] theorem State.stopAlarm_ctl (s : State) : (s.stopAlarm).ctl = s.ctl := rfl
@[simp] theorem State.stopAlarm_pulseT0 (s : State) : (s.stopAlarm).pulseT0 = s.pulseT0 := rfl
@[simp] theorem State.stopAlarm_wgEn (s : State) : (s.stopAlarm).wgEn = false := rfl
@[simp] theorem State.stopAlarm_wgPeriod (s : State) : (s.stopAlarm).wgPeriod = 0 := rfl
@[simp] theorem State.stopAlarm_wgDue (s : State) : (s.stopAlarm).wgDue = 0 := rfl
@[simp] theorem State.stopAlarm_wgPhase (s : State) : (s.stopAlarm).wgPhase = false := rfl
@[simp] theorem State.stopAlarm_reconfErr (s : State) : (s.stopAlarm).reconfErr = s.reconfErr := rfl
@[simp] theorem State.stopAlarm_hist (s : State) : (s.stopAlarm).hist = s.hist := rfl

/-! ## startAlarm -/

@[simp] theorem State.startAlarm_cfg (s : State) (p : Word) : (s.startAlarm p).cfg = s.cfg := rfl
@[simp] theorem State.startAlarm_stream (s : State) (p : Word) : (s.startAlarm p).stream = s.stream := rfl
@[simp] theorem State.startAlarm_inLevel (s : State) (p : Word) : (s.startAlarm p).inLevel = s.inLevel := rfl
@[simp] theorem State.startAlarm_led (s : State) (p : Word) : (s.startAlarm p).led = s.led := rfl
@[simp] theorem State.startAlarm_buz (s : State) (p : Word) : (s.startAlarm p).buz = s.buz := rfl
@[simp] theorem State.startAlarm_now (s : State) (p : Word) : (s.startAlarm p).now = s.now := rfl
@[simp] theorem State.startAlarm_irqPending (s : State) (p : Word) : (s.startAlarm p).irqPending = s.irqPending := rfl
@[simp] theorem State.startAlarm_debValid (s : State) (p : Word) : (s.startAlarm p).debValid = s.debValid := rfl
@[simp] theorem State.startAlarm_debLast (s : State) (p : Word) : (s.startAlarm p).debLast = s.debLast := rfl
@[simp] theorem State.startAlarm_fifo (s : State) (p : Word) : (s.startAlarm p).fifo = s.fifo := rfl
@[simp] theorem State.startAlarm_dropCount (s : State) (p : Word) : (s.startAlarm p).dropCount = s.dropCount := rfl
@[simp] theorem State.startAlarm_lastOutcome (s : State) (p : Word) : (s.startAlarm p).lastOutcome = s.lastOutcome := rfl
@[simp] theorem State.startAlarm_mode (s : State) (p : Word) : (s.startAlarm p).mode = s.mode := rfl
@[simp] theorem State.startAlarm_task (s : State) (p : Word) : (s.startAlarm p).task = s.task := rfl
@[simp] theorem State.startAlarm_ctl (s : State) (p : Word) : (s.startAlarm p).ctl = s.ctl := rfl
@[simp] theorem State.startAlarm_pulseT0 (s : State) (p : Word) : (s.startAlarm p).pulseT0 = s.pulseT0 := rfl
@[simp] theorem State.startAlarm_wgEn (s : State) (p : Word) : (s.startAlarm p).wgEn = true := rfl
@[simp] theorem State.startAlarm_wgPeriod (s : State) (p : Word) : (s.startAlarm p).wgPeriod = p := rfl
@[simp] theorem State.startAlarm_wgDue (s : State) (p : Word) : (s.startAlarm p).wgDue = s.now + periodTime p := rfl
@[simp] theorem State.startAlarm_wgPhase (s : State) (p : Word) : (s.startAlarm p).wgPhase = false := rfl
@[simp] theorem State.startAlarm_reconfErr (s : State) (p : Word) : (s.startAlarm p).reconfErr = s.reconfErr := rfl
@[simp] theorem State.startAlarm_hist (s : State) (p : Word) : (s.startAlarm p).hist = s.hist := rfl

/-! ## reportReconfFail -/

@[simp] theorem State.reportReconfFail_cfg (s : State) : (s.reportReconfFail).cfg = s.cfg := rfl
@[simp] theorem State.reportReconfFail_stream (s : State) : (s.reportReconfFail).stream = s.stream := rfl
@[simp] theorem State.reportReconfFail_inLevel (s : State) : (s.reportReconfFail).inLevel = s.inLevel := rfl
@[simp] theorem State.reportReconfFail_led (s : State) : (s.reportReconfFail).led = s.led := rfl
@[simp] theorem State.reportReconfFail_buz (s : State) : (s.reportReconfFail).buz = s.buz := rfl
@[simp] theorem State.reportReconfFail_now (s : State) : (s.reportReconfFail).now = s.now := rfl
@[simp] theorem State.reportReconfFail_irqPending (s : State) : (s.reportReconfFail).irqPending = s.irqPending := rfl
@[simp] theorem State.reportReconfFail_debValid (s : State) : (s.reportReconfFail).debValid = s.debValid := rfl
@[simp] theorem State.reportReconfFail_debLast (s : State) : (s.reportReconfFail).debLast = s.debLast := rfl
@[simp] theorem State.reportReconfFail_fifo (s : State) : (s.reportReconfFail).fifo = s.fifo := rfl
@[simp] theorem State.reportReconfFail_dropCount (s : State) : (s.reportReconfFail).dropCount = s.dropCount := rfl
@[simp] theorem State.reportReconfFail_lastOutcome (s : State) : (s.reportReconfFail).lastOutcome = s.lastOutcome := rfl
@[simp] theorem State.reportReconfFail_mode (s : State) : (s.reportReconfFail).mode = s.mode := rfl
@[simp] theorem State.reportReconfFail_task (s : State) : (s.reportReconfFail).task = s.task := rfl
@[simp] theorem State.reportReconfFail_ctl (s : State) : (s.reportReconfFail).ctl = s.ctl := rfl
@[simp] theorem State.reportReconfFail_pulseT0 (s : State) : (s.reportReconfFail).pulseT0 = s.pulseT0 := rfl
@[simp] theorem State.reportReconfFail_wgEn (s : State) : (s.reportReconfFail).wgEn = s.wgEn := rfl
@[simp] theorem State.reportReconfFail_wgPeriod (s : State) : (s.reportReconfFail).wgPeriod = s.wgPeriod := rfl
@[simp] theorem State.reportReconfFail_wgDue (s : State) : (s.reportReconfFail).wgDue = s.wgDue := rfl
@[simp] theorem State.reportReconfFail_wgPhase (s : State) : (s.reportReconfFail).wgPhase = s.wgPhase := rfl
@[simp] theorem State.reportReconfFail_reconfErr (s : State) : (s.reportReconfFail).reconfErr = true := rfl
@[simp] theorem State.reportReconfFail_hist (s : State) : (s.reportReconfFail).hist = s.hist ++ [.errReport .reconfFail] := rfl

/-! ## moveTask -/

@[simp] theorem State.moveTask_cfg (s : State) (p : TaskPos) : (s.moveTask p).cfg = s.cfg := rfl
@[simp] theorem State.moveTask_stream (s : State) (p : TaskPos) : (s.moveTask p).stream = s.stream := rfl
@[simp] theorem State.moveTask_inLevel (s : State) (p : TaskPos) : (s.moveTask p).inLevel = s.inLevel := rfl
@[simp] theorem State.moveTask_led (s : State) (p : TaskPos) : (s.moveTask p).led = s.led := rfl
@[simp] theorem State.moveTask_buz (s : State) (p : TaskPos) : (s.moveTask p).buz = s.buz := rfl
@[simp] theorem State.moveTask_now (s : State) (p : TaskPos) : (s.moveTask p).now = s.now := rfl
@[simp] theorem State.moveTask_irqPending (s : State) (p : TaskPos) : (s.moveTask p).irqPending = s.irqPending := rfl
@[simp] theorem State.moveTask_debValid (s : State) (p : TaskPos) : (s.moveTask p).debValid = s.debValid := rfl
@[simp] theorem State.moveTask_debLast (s : State) (p : TaskPos) : (s.moveTask p).debLast = s.debLast := rfl
@[simp] theorem State.moveTask_fifo (s : State) (p : TaskPos) : (s.moveTask p).fifo = s.fifo := rfl
@[simp] theorem State.moveTask_dropCount (s : State) (p : TaskPos) : (s.moveTask p).dropCount = s.dropCount := rfl
@[simp] theorem State.moveTask_lastOutcome (s : State) (p : TaskPos) : (s.moveTask p).lastOutcome = s.lastOutcome := rfl
@[simp] theorem State.moveTask_mode (s : State) (p : TaskPos) : (s.moveTask p).mode = s.mode := rfl
@[simp] theorem State.moveTask_task (s : State) (p : TaskPos) : (s.moveTask p).task = p := rfl
@[simp] theorem State.moveTask_ctl (s : State) (p : TaskPos) : (s.moveTask p).ctl = s.ctl := rfl
@[simp] theorem State.moveTask_pulseT0 (s : State) (p : TaskPos) : (s.moveTask p).pulseT0 = s.pulseT0 := rfl
@[simp] theorem State.moveTask_wgEn (s : State) (p : TaskPos) : (s.moveTask p).wgEn = s.wgEn := rfl
@[simp] theorem State.moveTask_wgPeriod (s : State) (p : TaskPos) : (s.moveTask p).wgPeriod = s.wgPeriod := rfl
@[simp] theorem State.moveTask_wgDue (s : State) (p : TaskPos) : (s.moveTask p).wgDue = s.wgDue := rfl
@[simp] theorem State.moveTask_wgPhase (s : State) (p : TaskPos) : (s.moveTask p).wgPhase = s.wgPhase := rfl
@[simp] theorem State.moveTask_reconfErr (s : State) (p : TaskPos) : (s.moveTask p).reconfErr = s.reconfErr := rfl
@[simp] theorem State.moveTask_hist (s : State) (p : TaskPos) : (s.moveTask p).hist = s.hist := rfl

/-! ## afterWord -/

@[simp] theorem State.afterWord_cfg (s : State) (rest : List Byte) : (s.afterWord rest).cfg = s.cfg := rfl
@[simp] theorem State.afterWord_stream (s : State) (rest : List Byte) : (s.afterWord rest).stream = rest := rfl
@[simp] theorem State.afterWord_inLevel (s : State) (rest : List Byte) : (s.afterWord rest).inLevel = s.inLevel := rfl
@[simp] theorem State.afterWord_led (s : State) (rest : List Byte) : (s.afterWord rest).led = s.led := rfl
@[simp] theorem State.afterWord_buz (s : State) (rest : List Byte) : (s.afterWord rest).buz = s.buz := rfl
@[simp] theorem State.afterWord_now (s : State) (rest : List Byte) : (s.afterWord rest).now = s.now := rfl
@[simp] theorem State.afterWord_irqPending (s : State) (rest : List Byte) : (s.afterWord rest).irqPending = s.irqPending := rfl
@[simp] theorem State.afterWord_debValid (s : State) (rest : List Byte) : (s.afterWord rest).debValid = s.debValid := rfl
@[simp] theorem State.afterWord_debLast (s : State) (rest : List Byte) : (s.afterWord rest).debLast = s.debLast := rfl
@[simp] theorem State.afterWord_fifo (s : State) (rest : List Byte) : (s.afterWord rest).fifo = s.fifo := rfl
@[simp] theorem State.afterWord_dropCount (s : State) (rest : List Byte) : (s.afterWord rest).dropCount = s.dropCount := rfl
@[simp] theorem State.afterWord_lastOutcome (s : State) (rest : List Byte) : (s.afterWord rest).lastOutcome = s.lastOutcome := rfl
@[simp] theorem State.afterWord_mode (s : State) (rest : List Byte) : (s.afterWord rest).mode = s.mode := rfl
@[simp] theorem State.afterWord_task (s : State) (rest : List Byte) : (s.afterWord rest).task = s.task := rfl
@[simp] theorem State.afterWord_ctl (s : State) (rest : List Byte) : (s.afterWord rest).ctl = s.ctl := rfl
@[simp] theorem State.afterWord_pulseT0 (s : State) (rest : List Byte) : (s.afterWord rest).pulseT0 = s.pulseT0 := rfl
@[simp] theorem State.afterWord_wgEn (s : State) (rest : List Byte) : (s.afterWord rest).wgEn = s.wgEn := rfl
@[simp] theorem State.afterWord_wgPeriod (s : State) (rest : List Byte) : (s.afterWord rest).wgPeriod = s.wgPeriod := rfl
@[simp] theorem State.afterWord_wgDue (s : State) (rest : List Byte) : (s.afterWord rest).wgDue = s.wgDue := rfl
@[simp] theorem State.afterWord_wgPhase (s : State) (rest : List Byte) : (s.afterWord rest).wgPhase = s.wgPhase := rfl
@[simp] theorem State.afterWord_reconfErr (s : State) (rest : List Byte) : (s.afterWord rest).reconfErr = s.reconfErr := rfl
@[simp] theorem State.afterWord_hist (s : State) (rest : List Byte) : (s.afterWord rest).hist = s.hist := rfl

/-! ## offerBytes -/

@[simp] theorem State.offerBytes_cfg (s : State) (bytes : List Byte) : (s.offerBytes bytes).cfg = s.cfg := rfl
@[simp] theorem State.offerBytes_stream (s : State) (bytes : List Byte) : (s.offerBytes bytes).stream = bytes ++ s.stream := rfl
@[simp] theorem State.offerBytes_inLevel (s : State) (bytes : List Byte) : (s.offerBytes bytes).inLevel = s.inLevel := rfl
@[simp] theorem State.offerBytes_led (s : State) (bytes : List Byte) : (s.offerBytes bytes).led = s.led := rfl
@[simp] theorem State.offerBytes_buz (s : State) (bytes : List Byte) : (s.offerBytes bytes).buz = s.buz := rfl
@[simp] theorem State.offerBytes_now (s : State) (bytes : List Byte) : (s.offerBytes bytes).now = s.now := rfl
@[simp] theorem State.offerBytes_irqPending (s : State) (bytes : List Byte) : (s.offerBytes bytes).irqPending = s.irqPending := rfl
@[simp] theorem State.offerBytes_debValid (s : State) (bytes : List Byte) : (s.offerBytes bytes).debValid = s.debValid := rfl
@[simp] theorem State.offerBytes_debLast (s : State) (bytes : List Byte) : (s.offerBytes bytes).debLast = s.debLast := rfl
@[simp] theorem State.offerBytes_fifo (s : State) (bytes : List Byte) : (s.offerBytes bytes).fifo = s.fifo := rfl
@[simp] theorem State.offerBytes_dropCount (s : State) (bytes : List Byte) : (s.offerBytes bytes).dropCount = s.dropCount := rfl
@[simp] theorem State.offerBytes_lastOutcome (s : State) (bytes : List Byte) : (s.offerBytes bytes).lastOutcome = s.lastOutcome := rfl
@[simp] theorem State.offerBytes_mode (s : State) (bytes : List Byte) : (s.offerBytes bytes).mode = s.mode := rfl
@[simp] theorem State.offerBytes_task (s : State) (bytes : List Byte) : (s.offerBytes bytes).task = s.task := rfl
@[simp] theorem State.offerBytes_ctl (s : State) (bytes : List Byte) : (s.offerBytes bytes).ctl = s.ctl := rfl
@[simp] theorem State.offerBytes_pulseT0 (s : State) (bytes : List Byte) : (s.offerBytes bytes).pulseT0 = s.pulseT0 := rfl
@[simp] theorem State.offerBytes_wgEn (s : State) (bytes : List Byte) : (s.offerBytes bytes).wgEn = s.wgEn := rfl
@[simp] theorem State.offerBytes_wgPeriod (s : State) (bytes : List Byte) : (s.offerBytes bytes).wgPeriod = s.wgPeriod := rfl
@[simp] theorem State.offerBytes_wgDue (s : State) (bytes : List Byte) : (s.offerBytes bytes).wgDue = s.wgDue := rfl
@[simp] theorem State.offerBytes_wgPhase (s : State) (bytes : List Byte) : (s.offerBytes bytes).wgPhase = s.wgPhase := rfl
@[simp] theorem State.offerBytes_reconfErr (s : State) (bytes : List Byte) : (s.offerBytes bytes).reconfErr = s.reconfErr := rfl
@[simp] theorem State.offerBytes_hist (s : State) (bytes : List Byte) : (s.offerBytes bytes).hist = s.hist := rfl

/-! ## resetState -/

@[simp] theorem State.resetState_cfg (s : State) : (s.resetState).cfg = s.cfg := rfl
@[simp] theorem State.resetState_stream (s : State) : (s.resetState).stream = s.stream := rfl
@[simp] theorem State.resetState_inLevel (s : State) : (s.resetState).inLevel = s.inLevel := rfl
@[simp] theorem State.resetState_led (s : State) : (s.resetState).led = false := rfl
@[simp] theorem State.resetState_buz (s : State) : (s.resetState).buz = false := rfl
@[simp] theorem State.resetState_now (s : State) : (s.resetState).now = s.now := rfl
@[simp] theorem State.resetState_irqPending (s : State) : (s.resetState).irqPending = 0 := rfl
@[simp] theorem State.resetState_debValid (s : State) : (s.resetState).debValid = false := rfl
@[simp] theorem State.resetState_debLast (s : State) : (s.resetState).debLast = 0 := rfl
@[simp] theorem State.resetState_fifo (s : State) : (s.resetState).fifo = [] := rfl
@[simp] theorem State.resetState_dropCount (s : State) : (s.resetState).dropCount = 0 := rfl
@[simp] theorem State.resetState_lastOutcome (s : State) : (s.resetState).lastOutcome = .none := rfl
@[simp] theorem State.resetState_mode (s : State) : (s.resetState).mode = BitVec.ofNat 8 s.cfg.modeReset := rfl
@[simp] theorem State.resetState_task (s : State) : (s.resetState).task = .pop := rfl
@[simp] theorem State.resetState_ctl (s : State) : (s.resetState).ctl = none := rfl
@[simp] theorem State.resetState_pulseT0 (s : State) : (s.resetState).pulseT0 = 0 := rfl
@[simp] theorem State.resetState_wgEn (s : State) : (s.resetState).wgEn = false := rfl
@[simp] theorem State.resetState_wgPeriod (s : State) : (s.resetState).wgPeriod = 0 := rfl
@[simp] theorem State.resetState_wgDue (s : State) : (s.resetState).wgDue = 0 := rfl
@[simp] theorem State.resetState_wgPhase (s : State) : (s.resetState).wgPhase = false := rfl
@[simp] theorem State.resetState_reconfErr (s : State) : (s.resetState).reconfErr = false := rfl
@[simp] theorem State.resetState_hist (s : State) : (s.resetState).hist = s.hist := rfl

/-! ## powerOn -/

@[simp] theorem State.powerOn_cfg (cfg : Config) (l : Bool) (t : Time) (st : List Byte) : (State.powerOn cfg l t st).cfg = cfg := rfl
@[simp] theorem State.powerOn_stream (cfg : Config) (l : Bool) (t : Time) (st : List Byte) : (State.powerOn cfg l t st).stream = st := rfl
@[simp] theorem State.powerOn_inLevel (cfg : Config) (l : Bool) (t : Time) (st : List Byte) : (State.powerOn cfg l t st).inLevel = l := rfl
@[simp] theorem State.powerOn_led (cfg : Config) (l : Bool) (t : Time) (st : List Byte) : (State.powerOn cfg l t st).led = false := rfl
@[simp] theorem State.powerOn_buz (cfg : Config) (l : Bool) (t : Time) (st : List Byte) : (State.powerOn cfg l t st).buz = false := rfl
@[simp] theorem State.powerOn_now (cfg : Config) (l : Bool) (t : Time) (st : List Byte) : (State.powerOn cfg l t st).now = t := rfl
@[simp] theorem State.powerOn_irqPending (cfg : Config) (l : Bool) (t : Time) (st : List Byte) : (State.powerOn cfg l t st).irqPending = 0 := rfl
@[simp] theorem State.powerOn_debValid (cfg : Config) (l : Bool) (t : Time) (st : List Byte) : (State.powerOn cfg l t st).debValid = false := rfl
@[simp] theorem State.powerOn_debLast (cfg : Config) (l : Bool) (t : Time) (st : List Byte) : (State.powerOn cfg l t st).debLast = 0 := rfl
@[simp] theorem State.powerOn_fifo (cfg : Config) (l : Bool) (t : Time) (st : List Byte) : (State.powerOn cfg l t st).fifo = [] := rfl
@[simp] theorem State.powerOn_dropCount (cfg : Config) (l : Bool) (t : Time) (st : List Byte) : (State.powerOn cfg l t st).dropCount = 0 := rfl
@[simp] theorem State.powerOn_lastOutcome (cfg : Config) (l : Bool) (t : Time) (st : List Byte) : (State.powerOn cfg l t st).lastOutcome = .none := rfl
@[simp] theorem State.powerOn_mode (cfg : Config) (l : Bool) (t : Time) (st : List Byte) : (State.powerOn cfg l t st).mode = BitVec.ofNat 8 cfg.modeReset := rfl
@[simp] theorem State.powerOn_task (cfg : Config) (l : Bool) (t : Time) (st : List Byte) : (State.powerOn cfg l t st).task = .pop := rfl
@[simp] theorem State.powerOn_ctl (cfg : Config) (l : Bool) (t : Time) (st : List Byte) : (State.powerOn cfg l t st).ctl = none := rfl
@[simp] theorem State.powerOn_pulseT0 (cfg : Config) (l : Bool) (t : Time) (st : List Byte) : (State.powerOn cfg l t st).pulseT0 = 0 := rfl
@[simp] theorem State.powerOn_wgEn (cfg : Config) (l : Bool) (t : Time) (st : List Byte) : (State.powerOn cfg l t st).wgEn = false := rfl
@[simp] theorem State.powerOn_wgPeriod (cfg : Config) (l : Bool) (t : Time) (st : List Byte) : (State.powerOn cfg l t st).wgPeriod = 0 := rfl
@[simp] theorem State.powerOn_wgDue (cfg : Config) (l : Bool) (t : Time) (st : List Byte) : (State.powerOn cfg l t st).wgDue = 0 := rfl
@[simp] theorem State.powerOn_wgPhase (cfg : Config) (l : Bool) (t : Time) (st : List Byte) : (State.powerOn cfg l t st).wgPhase = false := rfl
@[simp] theorem State.powerOn_reconfErr (cfg : Config) (l : Bool) (t : Time) (st : List Byte) : (State.powerOn cfg l t st).reconfErr = false := rfl
@[simp] theorem State.powerOn_hist (cfg : Config) (l : Bool) (t : Time) (st : List Byte) : (State.powerOn cfg l t st).hist = [] := rfl

end Sys2Proof.Machine
end

