-- ==== Sys2Proof/Laws/Ops.lean ====
section
/-! SUPPORT. What each shared operation can do, said once: a caller's proof cites these and unfolds no operation. -/

namespace Sys2Proof.Machine

open Host (Outcome)

/-! ## Outcomes -/

theorem require_true {c : Bool} (h : c = true) (s t : State) : require c s t = .next t := by simp [require, h]

theorem require_false {c : Bool} (h : c = false) (s t : State) : require c s t = .next s := by
  simp [require, hold, h]

/-- What `require` answers: the step where the condition holds, else the state it was given. -/
theorem require_next {c : Bool} {s t u : State} (h : require c s t = .next u) :
    (c = true ∧ u = t) ∨ (c = false ∧ u = s) := by
  cases c <;> simp [require, hold] at h <;> simp [h]

/-! ## Saturation and clock sums -/

theorem sat32_toNat (v : Nat) : (sat32 v).toNat = min v (2 ^ 32 - 1) := by
  simp only [sat32, BitVec.toNat_ofNat]
  omega

theorem periodTime_toNat (p : Word) : (periodTime p).toNat = p.toNat := by
  have := p.isLt
  simp only [periodTime, BitVec.toNat_setWidth]
  omega

theorem deltaTime_toNat (d : BitVec 24) : (deltaTime d).toNat = d.toNat := by
  have := d.isLt
  simp only [deltaTime, BitVec.toNat_setWidth]
  omega

/-- R200: a clock value plus anything below 2^33 does not wrap. -/
theorem time_add_toNat {t d : Time} (h : t.toNat + d.toNat < 2 ^ 64) : (t + d).toNat = t.toNat + d.toNat := by
  rw [BitVec.toNat_add]
  omega

/-- R131: the elapsed time is the true difference of timestamps in order. -/
theorem elapsed_toNat {s : State} {t : Time} (h : s.debLast.toNat ≤ t.toNat) :
    (s.elapsed t).toNat = t.toNat - s.debLast.toNat := by
  have := t.isLt
  rw [State.elapsed, BitVec.toNat_sub]
  omega

/-! ## The pin -/

/-- R197: a new level, and one more pending invocation (or the latch) on a configured edge. -/
theorem setPin_cases (s : State) (level : Bool) :
    (s.cfg.edgeSel.configures s.inLevel level = true ∧
      s.setPin level = { s with
        inLevel := level, irqPending := if s.cfg.irqCoalesce then 1 else s.irqPending + 1 }) ∨
    (s.cfg.edgeSel.configures s.inLevel level = false ∧ s.setPin level = { s with inLevel := level }) := by
  unfold State.setPin
  cases s.cfg.edgeSel.configures s.inLevel level
  · exact .inr ⟨rfl, rfl⟩
  · exact .inl ⟨rfl, rfl⟩

/-! ## Filter, channel, edge handler -/

/-- R131: the filter discards with no state change, or accepts and moves the window. -/
theorem filter_cases (raw : RawEdgeEvent) (s : State) :
    (s.filterRejects raw.tsUs = true ∧ filter raw s = (none, s)) ∨
    (s.filterRejects raw.tsUs = false ∧
      filter raw s = (some raw.toAccepted, { s with debValid := true, debLast := raw.tsUs })) := by
  unfold filter
  cases s.filterRejects raw.tsUs
  · exact .inr ⟨rfl, rfl⟩
  · exact .inl ⟨rfl, rfl⟩

/-- R141: push appends where there is room, else counts the drop. -/
theorem push_cases (ev : AcceptedEvent) (s : State) :
    (s.fifo.length < s.cfg.capacity ∧ push ev s = (true, { s with fifo := s.fifo ++ [ev] })) ∨
    (s.cfg.capacity ≤ s.fifo.length ∧
      push ev s = (false, { s with dropCount := sat32 (s.dropCount.toNat + 1) })) := by
  unfold push
  by_cases h : s.fifo.length < s.cfg.capacity
  · exact .inl ⟨h, by simp [h]⟩
  · exact .inr ⟨by omega, by simp [h]⟩

/-- R143: pop removes the head. -/
theorem pop_cases (s : State) :
    (s.fifo = [] ∧ pop s = none) ∨ (∃ ev rest, s.fifo = ev :: rest ∧ pop s = some (ev, { s with fifo := rest })) := by
  unfold pop
  cases h : s.fifo with
  | nil => exact .inl ⟨rfl, rfl⟩
  | cons ev rest => exact .inr ⟨ev, rest, rfl, rfl⟩

/-- R124, R121: the edge handler's three outcomes. -/
theorem onEdge_cases (raw : RawEdgeEvent) (s : State) :
    (s.filterRejects raw.tsUs = true ∧ onEdge raw s = (.rejected, s)) ∨
    (s.filterRejects raw.tsUs = false ∧ s.fifo.length < s.cfg.capacity ∧
      onEdge raw s = (.accepted, { s with
        debValid := true, debLast := raw.tsUs, fifo := s.fifo ++ [raw.toAccepted] })) ∨
    (s.filterRejects raw.tsUs = false ∧ s.cfg.capacity ≤ s.fifo.length ∧
      onEdge raw s = (.dropped, { s with
        debValid := true, debLast := raw.tsUs, dropCount := sat32 (s.dropCount.toNat + 1) })) := by
  unfold onEdge
  rcases filter_cases raw s with ⟨hr, h⟩ | ⟨hr, h⟩
  · exact .inl ⟨hr, by rw [h]⟩
  · rw [h]
    rcases push_cases raw.toAccepted { s with debValid := true, debLast := raw.tsUs } with ⟨hl, hp⟩ | ⟨hl, hp⟩
    · exact .inr (.inl ⟨hr, hl, by simp only [hp]⟩)
    · exact .inr (.inr ⟨hr, hl, by simp only [hp]⟩)

/-- R121: EDGE_ISR's step, by its outcome. -/
theorem takeEdge_cases (s : State) :
    (s.filterRejects s.now = true ∧ s.takeEdge = { s with
      irqPending := s.irqPending - 1, lastOutcome := .rejected
      hist := s.hist ++ [.edge s.sampleEdge .rejected] }) ∨
    (s.filterRejects s.now = false ∧ s.fifo.length < s.cfg.capacity ∧ s.takeEdge = { s with
      irqPending := s.irqPending - 1, debValid := true, debLast := s.now
      fifo := s.fifo ++ [s.sampleEdge.toAccepted], lastOutcome := .accepted
      hist := s.hist ++ [.edge s.sampleEdge .accepted] }) ∨
    (s.filterRejects s.now = false ∧ s.cfg.capacity ≤ s.fifo.length ∧ s.takeEdge = { s with
      irqPending := s.irqPending - 1, debValid := true, debLast := s.now
      dropCount := sat32 (s.dropCount.toNat + 1), lastOutcome := .dropped
      hist := s.hist ++ [.edge s.sampleEdge .dropped] }) := by
  rcases onEdge_cases s.sampleEdge { s with irqPending := s.irqPending - 1 } with ⟨hr, h⟩ | ⟨hr, hl, h⟩ | ⟨hr, hl, h⟩
  · refine .inl ⟨hr, ?_⟩
    simp only [State.takeEdge, h]
    rfl
  · refine .inr (.inl ⟨hr, hl, ?_⟩)
    simp only [State.takeEdge, h]
    rfl
  · refine .inr (.inr ⟨hr, hl, ?_⟩)
    simp only [State.takeEdge, h]
    rfl

/-! ## The alarm -/

/-- R167: stop, LED low, then nothing, a failed create, or a new alarm. -/
theorem reconfigure_cases (spec : WaveformSpec) (fail : Bool) (s : State) :
    (spec = .disabled ∧ reconfigure spec fail s = (true, s.stopAlarm.driveLed false)) ∨
    (∃ p, spec = .enabled p ∧ fail = true ∧
      reconfigure spec fail s = (false, (s.stopAlarm.driveLed false).reportReconfFail)) ∨
    (∃ p, spec = .enabled p ∧ fail = false ∧
      reconfigure spec fail s = (true, (s.stopAlarm.driveLed false).startAlarm p)) := by
  cases spec with
  | disabled => exact .inl ⟨rfl, rfl⟩
  | enabled p =>
    cases fail
    · exact .inr (.inr ⟨p, rfl, rfl, rfl⟩)
    · exact .inr (.inl ⟨p, rfl, rfl, rfl⟩)

/-- R171: RECONF's step, by the spec of the mode and the answer to create. -/
theorem applyMode_cases (s : State) (fail : Bool) :
    (s.cfg.specOf s.mode.toNat = .disabled ∧ s.applyMode fail = { s with
      wgEn := false, wgPeriod := 0, wgDue := 0, wgPhase := false, led := false, task := .pop
      hist := s.hist ++ [.out .led false s.now] ++ [.reconf s.mode .disabled true] }) ∨
    (∃ p, s.cfg.specOf s.mode.toNat = .enabled p ∧ fail = true ∧ s.applyMode fail = { s with
      wgEn := false, wgPeriod := 0, wgDue := 0, wgPhase := false, led := false, task := .pop, reconfErr := true
      hist := s.hist ++ [.out .led false s.now] ++ [.errReport .reconfFail] ++
        [.reconf s.mode (.enabled p) false] }) ∨
    (∃ p, s.cfg.specOf s.mode.toNat = .enabled p ∧ fail = false ∧ s.applyMode fail = { s with
      wgEn := true, wgPeriod := p, wgDue := s.now + periodTime p, wgPhase := false, led := false, task := .pop
      hist := s.hist ++ [.out .led false s.now] ++ [.reconf s.mode (.enabled p) true] }) := by
  rcases reconfigure_cases (s.cfg.specOf s.mode.toNat) fail s with ⟨hs, h⟩ | ⟨p, hs, hf, h⟩ | ⟨p, hs, hf, h⟩
  · refine .inl ⟨hs, ?_⟩
    simp only [State.applyMode, h]
    rw [hs]
    rfl
  · refine .inr (.inl ⟨p, hs, hf, ?_⟩)
    simp only [State.applyMode, h]
    rw [hs]
    rfl
  · refine .inr (.inr ⟨p, hs, hf, ?_⟩)
    simp only [State.applyMode, h]
    rw [hs]
    rfl

/-- R95: an admitted configuration has an entry for every mode below N. -/
theorem specOf_of_lt {c : Config} (hc : c.admitted = true) {m : Nat} (hm : m < c.modes) :
    ∃ spec, c.modeTable[m]? = some spec ∧ c.specOf m = spec := by
  have hl : c.modeTable.length = c.modes := by simp [Config.admitted] at hc; exact hc.1.2
  have : m < c.modeTable.length := by omega
  exact ⟨c.modeTable[m], by simp [this], by simp [Config.specOf, this]⟩

/-- R14: an enabled entry of an admitted configuration has a period above the clock resolution. -/
theorem specOf_period {c : Config} (hc : c.admitted = true) {m : Nat} (hm : m < c.modes) {p : Word}
    (h : c.specOf m = .enabled p) : c.clockResUs.toNat < p.toNat := by
  obtain ⟨spec, ht, hs⟩ := specOf_of_lt hc hm
  rw [hs] at h
  subst h
  have hall : ∀ x ∈ c.modeTable, WaveformSpec.admittedFor c.clockResUs x = true := by
    simp [Config.admitted] at hc
    exact hc.2
  have := hall _ (List.mem_of_getElem? ht)
  simpa [WaveformSpec.admittedFor] using this

/-! ## The port -/

theorem portAligned_iff (a : BitVec 11) : portAligned a = true ↔ a.toNat % 4 = 0 := by
  simp [portAligned, ← BitVec.toNat_inj, BitVec.extractLsb'_toNat]

theorem memRead_aligned {a : BitVec 11} (h : a.toNat % 4 = 0) (s : State) : memRead s a = (portReg s a, .ok) := by
  simp [memRead, (portAligned_iff a).2 h]

theorem memRead_misaligned {a : BitVec 11} (h : a.toNat % 4 ≠ 0) (s : State) : memRead s a = (0, .err) := by
  have : portAligned a = false := by
    rw [← Bool.not_eq_true, portAligned_iff]
    exact h
  simp [memRead, this]

theorem loHalf_toNat (v : Time) : (loHalf v).toNat = v.toNat % 2 ^ 32 := by
  simp [loHalf, BitVec.extractLsb'_toNat]

theorem hiHalf_toNat (v : Time) : (hiHalf v).toNat = v.toNat / 2 ^ 32 := by
  have := v.isLt
  simp [hiHalf, BitVec.extractLsb'_toNat, Nat.shiftRight_eq_div_pow]
  omega

/-- R47: STATUS as the sum of its fields, each at its place. -/
theorem statusWord_toNat (s : State) :
    (statusWord s).toNat = s.mode.toNat * 2 ^ 16 + s.ctlValid.toNat * 2 ^ 11 + s.task.code.toNat * 2 ^ 8 +
      s.lastOutcome.code.toNat * 2 ^ 6 + s.debValid.toNat * 2 ^ 5 + s.inLevel.toNat * 2 ^ 4 +
      s.reconfErr.toNat * 2 ^ 3 + s.wgEn.toNat * 2 ^ 2 + s.buz.toNat * 2 + s.led.toNat := by
  have hm := s.mode.isLt
  have h1 := s.task.code.isLt
  have h2 := s.lastOutcome.code.isLt
  have b1 := Bool.toNat_lt s.ctlValid
  have b2 := Bool.toNat_lt s.debValid
  have b3 := Bool.toNat_lt s.inLevel
  have b4 := Bool.toNat_lt s.reconfErr
  have b5 := Bool.toNat_lt s.wgEn
  have b6 := Bool.toNat_lt s.buz
  have b7 := Bool.toNat_lt s.led
  simp only [statusWord, BitVec.toNat_append, BitVec.toNat_ofBool]
  rw [← Nat.shiftLeft_add_eq_or_of_lt (by omega), ← Nat.shiftLeft_add_eq_or_of_lt (by omega),
    ← Nat.shiftLeft_add_eq_or_of_lt (by omega), ← Nat.shiftLeft_add_eq_or_of_lt (by omega),
    ← Nat.shiftLeft_add_eq_or_of_lt (by omega), ← Nat.shiftLeft_add_eq_or_of_lt (by omega),
    ← Nat.shiftLeft_add_eq_or_of_lt (by omega), ← Nat.shiftLeft_add_eq_or_of_lt (by omega),
    ← Nat.shiftLeft_add_eq_or_of_lt (by omega), ← Nat.shiftLeft_add_eq_or_of_lt (by omega),
    ← Nat.shiftLeft_add_eq_or_of_lt (by omega)]
  simp only [Nat.shiftLeft_eq]
  simp
  omega

/-! ## The step -/

/-- What a step that answers a next state did: nothing, with no operation offered, or the operation the stream offers. -/
theorem step_next {s t : State} (h : step s = .next t) :
    s.cfg.admitted = true ∧
    ((s.fetch = .empty ∧ t = s) ∨ ∃ i rest, s.fetch = .operation i rest ∧ exec i (s.afterWord rest) = .next t) := by
  unfold step at h
  by_cases ha : s.cfg.admitted = true
  · refine ⟨ha, ?_⟩
    rw [if_pos ha] at h
    cases hf : s.fetch with
    | empty =>
      rw [hf] at h
      simp only [Outcome.next.injEq] at h
      exact .inl ⟨rfl, h.symm⟩
    | operation i rest =>
      rw [hf] at h
      exact .inr ⟨i, rest, rfl, h⟩
    | invalidWord bytes =>
      rw [hf] at h
      simp at h
  · rw [if_neg ha] at h
    simp at h

end Sys2Proof.Machine
end

