-- ==== Sys2Proof/Laws/Exec.lean ====
section
/-! SUPPORT. One inversion lemma per meaning: what it can answer. -/

namespace Sys2Proof.Machine

open Host (Outcome)

theorem execPinSet_next {level : Bool} {s t : State} (h : execPinSet level s = .next t) :
    t = s.setPin level := by
  simp only [execPinSet, Outcome.next.injEq] at h
  exact h.symm

theorem execClkAdv_next {delta : BitVec 24} {s t : State} (h : execClkAdv delta s = .next t) :
    s.now.toNat + delta.toNat ≤ clockLimit ∧ t = { s with now := s.now + deltaTime delta } := by
  unfold execClkAdv at h
  by_cases hc : s.clockAllows delta = true
  · rw [if_pos hc] at h
    simp only [Outcome.next.injEq] at h
    exact ⟨by simpa [State.clockAllows] using hc, h.symm⟩
  · rw [if_neg hc] at h
    simp at h

theorem execReset_next {s t : State} (h : execReset s = .next t) :
    t = s.resetState.record (.reset s.now) := by
  simp only [execReset, Outcome.next.injEq] at h
  exact h.symm

theorem execBusRd_next {offset : BitVec 11} {s t : State} (h : execBusRd offset s = .next t) :
    t = s.record (.read offset (memRead s offset).1 (memRead s offset).2) := by
  simp only [execBusRd, Outcome.next.injEq] at h
  exact h.symm

theorem execBusWr_next {offset : BitVec 11} {s t : State} (h : execBusWr offset s = .next t) :
    t = s.record (.read offset 0 .err) := by
  simp only [execBusWr, Outcome.next.injEq] at h
  exact h.symm

theorem execEdgeIsr_next {s t : State} (h : execEdgeIsr s = .next t) :
    (0 < s.irqPending ∧ t = s.takeEdge) ∨ (s.irqPending = 0 ∧ t = s) := by
  rcases require_next h with ⟨hc, ht⟩ | ⟨hc, ht⟩
  · exact .inl ⟨by simpa [State.edgePending] using hc, ht⟩
  · exact .inr ⟨by simpa [State.edgePending] using hc, ht⟩

theorem execPop_next {s t : State} (h : execPop s = .next t) :
    (s.task = .pop ∧ ∃ ev rest, s.fifo = ev :: rest ∧
      t = { s with fifo := rest, ctl := some ev, task := .advance, hist := s.hist ++ [.pop ev] }) ∨
    ((s.task ≠ .pop ∨ s.fifo = []) ∧ t = s) := by
  unfold execPop at h
  by_cases hc : s.task = .pop
  · rw [if_pos (by simpa [State.atTask] using hc)] at h
    rcases pop_cases s with ⟨hf, hp⟩ | ⟨ev, rest, hf, hp⟩
    · rw [hp] at h
      simp only [hold, Outcome.next.injEq] at h
      exact .inr ⟨.inr hf, h.symm⟩
    · rw [hp] at h
      simp only [Outcome.next.injEq] at h
      exact .inl ⟨hc, ev, rest, hf, h.symm⟩
  · rw [if_neg (by simpa [State.atTask] using hc)] at h
    simp only [hold, Outcome.next.injEq] at h
    exact .inr ⟨.inl hc, h.symm⟩

theorem execAdvance_next {s t : State} (h : execAdvance s = .next t) :
    (s.task = .advance ∧ t = { s with mode := nextMode s.cfg s.mode, task := .pulseOn }) ∨
    (s.task ≠ .advance ∧ t = s) := by
  rcases require_next h with ⟨hc, ht⟩ | ⟨hc, ht⟩
  · exact .inl ⟨by simpa [State.atTask] using hc, ht⟩
  · exact .inr ⟨by simpa [State.atTask] using hc, ht⟩

theorem execPulseOn_next {s t : State} (h : execPulseOn s = .next t) :
    (s.task = .pulseOn ∧ t = { s with
      buz := true, pulseT0 := s.now, task := .pulseHold, hist := s.hist ++ [.out .buz true s.now] }) ∨
    (s.task ≠ .pulseOn ∧ t = s) := by
  rcases require_next h with ⟨hc, ht⟩ | ⟨hc, ht⟩
  · exact .inl ⟨by simpa [State.atTask] using hc, ht⟩
  · exact .inr ⟨by simpa [State.atTask] using hc, ht⟩

theorem execPulseOff_next {s t : State} (h : execPulseOff s = .next t) :
    (s.task = .pulseHold ∧ s.cfg.pulseDurationUs.toNat ≤ s.now.toNat - s.pulseT0.toNat ∧ t = { s with
      buz := false, task := .reconf, hist := s.hist ++ [.out .buz false s.now] }) ∨
    (s.pulseDone = false ∧ t = s) := by
  rcases require_next h with ⟨hc, ht⟩ | ⟨hc, ht⟩
  · simp only [State.pulseDone, State.atTask, State.pulseElapsed, Bool.and_eq_true, decide_eq_true_eq] at hc
    exact .inl ⟨hc.1, hc.2, ht⟩
  · exact .inr ⟨hc, ht⟩

theorem execReconf_next {fail : Bool} {s t : State} (h : execReconf fail s = .next t) :
    (s.task = .reconf ∧ t = s.applyMode fail) ∨ (s.task ≠ .reconf ∧ t = s) := by
  rcases require_next h with ⟨hc, ht⟩ | ⟨hc, ht⟩
  · exact .inl ⟨by simpa [State.atTask] using hc, ht⟩
  · exact .inr ⟨by simpa [State.atTask] using hc, ht⟩

theorem execTick_next {s t : State} (h : execTick s = .next t) :
    (s.wgEn = true ∧ s.wgDue.toNat ≤ s.now.toNat + s.cfg.clockResUs.toNat ∧ t = { s with
      wgPhase := !s.wgPhase, led := !s.wgPhase, wgDue := s.wgDue + periodTime s.wgPeriod
      hist := s.hist ++ [.out .led (!s.wgPhase) s.now] }) ∨
    (s.tickDue = false ∧ t = s) := by
  rcases require_next h with ⟨hc, ht⟩ | ⟨hc, ht⟩
  · simp only [State.tickDue, Bool.and_eq_true, decide_eq_true_eq] at hc
    exact .inl ⟨hc.1, hc.2, ht⟩
  · exact .inr ⟨hc, ht⟩

/-- No meaning faults, and one that is refused is CLK_ADV above the clock limit. -/
theorem execClkAdv_refused {delta : BitVec 24} {s : State} (h : clockLimit < s.now.toNat + delta.toNat) :
    execClkAdv delta s = .refused (.clockOverflow s.now delta) := by
  have hc : s.clockAllows delta = false := by
    simp only [State.clockAllows, decide_eq_false_iff_not]
    omega
  simp [execClkAdv, hc]

/-- No operation reads or writes the stream. -/
theorem exec_afterWord {i : Instr} {s t : State} (h : exec i s = .next t) (rest : List Byte) :
    exec i (s.afterWord rest) = .next (t.afterWord rest) := by
  cases i with
  | pinSet level =>
    obtain rfl := execPinSet_next h
    have ht : (s.afterWord rest).setPin level = (s.setPin level).afterWord rest := by
      rcases setPin_cases s level with ⟨hc, h1⟩ | ⟨hc, h1⟩ <;>
      rcases setPin_cases (s.afterWord rest) level with ⟨hc2, h2⟩ | ⟨hc2, h2⟩
      · rw [h1, h2]
        rfl
      · exact absurd (hc.symm.trans hc2) (by decide)
      · exact absurd (hc.symm.trans hc2) (by decide)
      · rw [h1, h2]
        rfl
    simp only [exec, execPinSet, ht]
  | clkAdv delta =>
    obtain ⟨hl, rfl⟩ := execClkAdv_next h
    have hc : s.clockAllows delta = true := by simpa [State.clockAllows] using hl
    have hc' : (s.afterWord rest).clockAllows delta = true := hc
    simp only [exec, execClkAdv, hc']
    rfl
  | reset =>
    obtain rfl := execReset_next h
    rfl
  | busRd offset =>
    obtain rfl := execBusRd_next h
    have hm : memRead (s.afterWord rest) offset = memRead s offset := rfl
    simp only [exec, execBusRd, hm]
    rfl
  | busWr offset =>
    obtain rfl := execBusWr_next h
    rfl
  | edgeIsr =>
    have hc : (s.afterWord rest).edgePending = s.edgePending := rfl
    have ht : (s.afterWord rest).takeEdge = s.takeEdge.afterWord rest := by
      rcases takeEdge_cases s with ⟨hr, h1⟩ | ⟨hr, hl, h1⟩ | ⟨hr, hl, h1⟩ <;>
      rcases takeEdge_cases (s.afterWord rest) with ⟨hr2, h2⟩ | ⟨hr2, hl2, h2⟩ | ⟨hr2, hl2, h2⟩ <;>
      first
        | (rw [h1, h2]; rfl)
        | (have e : (s.afterWord rest).filterRejects (s.afterWord rest).now = s.filterRejects s.now := rfl
           rw [e, hr] at hr2
           exact absurd hr2 (by decide))
        | (have e1 : (s.afterWord rest).fifo = s.fifo := rfl
           have e2 : (s.afterWord rest).cfg = s.cfg := rfl
           rw [e1, e2] at hl2
           omega)
    rcases require_next h with ⟨hp, rfl⟩ | ⟨hp, rfl⟩
    · simp only [exec, execEdgeIsr, hc, ht]
      exact require_true hp _ _
    · simp only [exec, execEdgeIsr, hc]
      exact require_false hp _ _
  | pop =>
    rcases execPop_next h with ⟨hc, ev, rest', hf, rfl⟩ | ⟨hc | hc, rfl⟩
    · simp [exec, execPop, pop, State.atTask, hc, hf]
      rfl
    · simp [exec, execPop, State.atTask, hc, hold]
    · simp [exec, execPop, pop, State.atTask, hc, hold]
  | advance =>
    rcases require_next h with ⟨hp, rfl⟩ | ⟨hp, rfl⟩
    · exact require_true hp _ _
    · exact require_false hp _ _
  | pulseOn =>
    rcases require_next h with ⟨hp, rfl⟩ | ⟨hp, rfl⟩
    · exact require_true hp _ _
    · exact require_false hp _ _
  | pulseOff =>
    rcases require_next h with ⟨hp, rfl⟩ | ⟨hp, rfl⟩
    · exact require_true hp _ _
    · exact require_false hp _ _
  | reconf fail =>
    have ht : (s.afterWord rest).applyMode fail = (s.applyMode fail).afterWord rest := by
      simp only [State.applyMode, State.afterWord, reconfigure]
      cases s.cfg.specOf s.mode.toNat <;> cases fail <;> rfl
    rcases require_next h with ⟨hp, rfl⟩ | ⟨hp, rfl⟩
    · simp only [exec, execReconf, ht]
      exact require_true hp _ _
    · exact require_false hp _ _
  | tick =>
    rcases require_next h with ⟨hp, rfl⟩ | ⟨hp, rfl⟩
    · exact require_true hp _ _
    · exact require_false hp _ _

end Sys2Proof.Machine
end

