-- ==== Sys2Proof/Laws/PerInstr.lean ====
section
/-! SUPPORT. Statements about every operation as syntax, one lemma per constructor. -/

namespace Sys2Proof.Laws

/-- R98, R105: the three fields of an operation's word are its agent code, its operation code and its operand. -/
def WordFields.Statement (i : Instr) : Prop :=
  agField (encode i) = i.agent.code ∧ opField (encode i) = i.op ∧ immField (encode i) = i.imm

theorem wordFields_of_encode (i : Instr) : WordFields.Statement i := by
  have ha := i.agent.code.isLt
  have ho := i.op.isLt
  have hi := i.imm.isLt
  refine ⟨BitVec.eq_of_toNat_eq ?_, BitVec.eq_of_toNat_eq ?_, BitVec.eq_of_toNat_eq ?_⟩
  · rw [agField_toNat, encode_toNat]
    omega
  · rw [opField_toNat, encode_toNat]
    omega
  · rw [immField_toNat, encode_toNat]
    omega

theorem WordFields.pinSet (level : Bool) : WordFields.Statement (.pinSet level) := wordFields_of_encode _

theorem WordFields.clkAdv (delta : BitVec 24) : WordFields.Statement (.clkAdv delta) := wordFields_of_encode _

theorem WordFields.reset : WordFields.Statement .reset := wordFields_of_encode _

theorem WordFields.busRd (offset : BitVec 11) : WordFields.Statement (.busRd offset) := wordFields_of_encode _

theorem WordFields.busWr (offset : BitVec 11) : WordFields.Statement (.busWr offset) := wordFields_of_encode _

theorem WordFields.edgeIsr : WordFields.Statement .edgeIsr := wordFields_of_encode _

theorem WordFields.pop : WordFields.Statement .pop := wordFields_of_encode _

theorem WordFields.advance : WordFields.Statement .advance := wordFields_of_encode _

theorem WordFields.pulseOn : WordFields.Statement .pulseOn := wordFields_of_encode _

theorem WordFields.pulseOff : WordFields.Statement .pulseOff := wordFields_of_encode _

theorem WordFields.reconf (fail : Bool) : WordFields.Statement (.reconf fail) := wordFields_of_encode _

theorem WordFields.tick : WordFields.Statement .tick := wordFields_of_encode _

end Sys2Proof.Laws
end

