-- ==== Sys2Proof/Laws/Safety.lean ====
section
/-! SUPPORT. What the claims' terms do when the history grows, and what every step keeps. -/

namespace Sys2Proof.Machine

/-! ## The history since the last reset -/

@[simp] theorem sinceReset_nil : sinceReset [] = [] := rfl

@[simp] theorem sinceReset_append_edge (h : List Record) (raw : RawEdgeEvent) (o : EdgeOutcome) :
    sinceReset (h ++ [.edge raw o]) = sinceReset h ++ [.edge raw o] := by simp [sinceReset]

@[simp] theorem sinceReset_append_pop (h : List Record) (ev : AcceptedEvent) :
    sinceReset (h ++ [.pop ev]) = sinceReset h ++ [.pop ev] := by simp [sinceReset]

@[simp] theorem sinceReset_append_out (h : List Record) (o : Output) (v : Bool) (t : Time) :
    sinceReset (h ++ [.out o v t]) = sinceReset h ++ [.out o v t] := by simp [sinceReset]

@[simp] theorem sinceReset_append_reconf (h : List Record) (m : BitVec 8) (spec : WaveformSpec) (ok : Bool) :
    sinceReset (h ++ [.reconf m spec ok]) = sinceReset h ++ [.reconf m spec ok] := by simp [sinceReset]

@[simp] theorem sinceReset_append_errReport (h : List Record) (e : ErrReport) :
    sinceReset (h ++ [.errReport e]) = sinceReset h ++ [.errReport e] := by simp [sinceReset]

@[simp] theorem sinceReset_append_read (h : List Record) (a : BitVec 11) (w : Word) (r : Resp) :
    sinceReset (h ++ [.read a w r]) = sinceReset h ++ [.read a w r] := by simp [sinceReset]

@[simp] theorem sinceReset_append_reset (h : List Record) (t : Time) : sinceReset (h ++ [.reset t]) = [] := by
  simp [sinceReset]

/-! ## What every operation keeps -/

/-- R202: no operation changes the parameters. -/
theorem exec_cfg {i : Instr} {s t : State} (h : exec i s = .next t) : t.cfg = s.cfg := by
  cases i with
  | pinSet level =>
    obtain rfl := execPinSet_next h
    rcases setPin_cases s level with ⟨_, e⟩ | ⟨_, e⟩ <;> rw [e]
  | clkAdv delta =>
    obtain ⟨_, rfl⟩ := execClkAdv_next h
    rfl
  | reset =>
    obtain rfl := execReset_next h
    rfl
  | busRd offset =>
    obtain rfl := execBusRd_next h
    rfl
  | busWr offset =>
    obtain rfl := execBusWr_next h
    rfl
  | edgeIsr =>
    rcases execEdgeIsr_next h with ⟨_, rfl⟩ | ⟨_, rfl⟩
    · rcases takeEdge_cases s with ⟨_, e⟩ | ⟨_, _, e⟩ | ⟨_, _, e⟩ <;> rw [e]
    · rfl
  | pop => rcases execPop_next h with ⟨_, _, _, _, rfl⟩ | ⟨_, rfl⟩ <;> rfl
  | advance => rcases execAdvance_next h with ⟨_, rfl⟩ | ⟨_, rfl⟩ <;> rfl
  | pulseOn => rcases execPulseOn_next h with ⟨_, rfl⟩ | ⟨_, rfl⟩ <;> rfl
  | pulseOff => rcases execPulseOff_next h with ⟨_, _, rfl⟩ | ⟨_, rfl⟩ <;> rfl
  | reconf fail =>
    rcases execReconf_next h with ⟨_, rfl⟩ | ⟨_, rfl⟩
    · rcases applyMode_cases s fail with ⟨_, e⟩ | ⟨_, _, _, e⟩ | ⟨_, _, _, e⟩ <;> rw [e]
    · rfl
  | tick => rcases execTick_next h with ⟨_, _, rfl⟩ | ⟨_, rfl⟩ <;> rfl

/-! ## Interleavings -/

theorem path_nil {s t : State} (h : Path s [] t) : t = s := by cases h; rfl

theorem path_cons {i : Instr} {is : List Instr} {s u : State} (h : Path s (i :: is) u) :
    ∃ t, Takes i s t ∧ Path t is u := by
  cases h with
  | cons hi hp => exact ⟨_, hi, hp⟩

end Sys2Proof.Machine
end

