-- ==== Sys2Proof/Machine/Assembler.lean ====
section
/-! DEFINITION. The assembler syntax of EA-OPS v1 and its pseudo-instructions (spec R108 to R110): text to the operations of
one interleaving. `none` is an assembly error. What R108 leaves open of the lexical form is log entry 17. -/

namespace Sys2Proof.Machine

/-! ## Expansions (R109) -/

/-- `WAIT d`: q copies of the longest CLK_ADV, then one of the remainder if there is one. -/
def waitOps (d : Nat) : List Instr :=
  List.replicate (d / 16777215) (.clkAdv 16777215) ++
    if d % 16777215 = 0 then [] else [.clkAdv (BitVec.ofNat 24 (d % 16777215))]

/-- `SERVICE` and `SERVICE_FAIL`: one controller loop with the clock advanced by the pulse duration. -/
def serviceOps (c : Config) (fail : Bool) : List Instr :=
  [.pop, .advance, .pulseOn] ++ waitOps c.pulseDurationUs.toNat ++ [.pulseOff, .reconf fail]

/-- `RD64`: high half, low half, high half again (R253). -/
def rd64Ops (lo hi : PortReg) : List Instr := [.busRd hi.offset, .busRd lo.offset, .busRd hi.offset]

/-! ## Words of a line -/

/-- The pieces of a text between separators. -/
def splitText (sep : Char → Bool) (cs : List Char) : List (List Char) :=
  cs.foldr (fun c acc => if sep c then [] :: acc else match acc with
    | [] => [[c]]
    | w :: ws => (c :: w) :: ws) [[]]

/-- R108: the line up to `;`, cut at blanks. -/
def lineWords (line : List Char) : List (List Char) :=
  (splitText (fun c => c == ' ' || c == '\t' || c == '\r') (line.takeWhile (· != ';'))).filter (· != [])

/-! ## Integers (R108) -/

/-- The value of a digit in a base of at most 16. -/
def digitValue (base : Nat) (c : Char) : Option Nat :=
  let v :=
    if '0'.toNat ≤ c.toNat ∧ c.toNat ≤ '9'.toNat then c.toNat - '0'.toNat
    else if 'a'.toNat ≤ c.toNat ∧ c.toNat ≤ 'f'.toNat then c.toNat - 'a'.toNat + 10
    else if 'A'.toNat ≤ c.toNat ∧ c.toNat ≤ 'F'.toNat then c.toNat - 'A'.toNat + 10
    else base
  if v < base then some v else none

/-- The value of a non-empty string of digits. -/
def digitsValue (base : Nat) (cs : List Char) : Option Nat :=
  if cs = [] then none
  else cs.foldl (fun acc c => acc.bind fun n => (digitValue base c).map fun v => n * base + v) (some 0)

/-- A decimal or `0x` hexadecimal integer. -/
def integerValue : List Char → Option Nat
  | '0' :: 'x' :: cs => digitsValue 16 cs
  | cs => digitsValue 10 cs

/-- An integer from `low` to `high`: out of range is an error, never truncated. -/
def integerIn (low high : Nat) (cs : List Char) : Option Nat :=
  (integerValue cs).bind fun n => if low ≤ n ∧ n ≤ high then some n else none

/-! ## Register names (R110) -/

/-- The names of R110 but for `MODE_TABLE<i>`. -/
def registerNames : List (String × PortReg) :=
  [("STATUS", .status), ("FIFO_STATUS", .fifoStatus), ("DROP_COUNT", .dropCount), ("IRQ_PENDING", .irqPending),
    ("DEB_LAST_LO", .debLastLo), ("DEB_LAST_HI", .debLastHi), ("NOW_LO", .nowLo), ("NOW_HI", .nowHi),
    ("WG_PERIOD", .wgPeriod), ("WG_DUE_LO", .wgDueLo), ("WG_DUE_HI", .wgDueHi), ("PULSE_T0_LO", .pulseT0Lo),
    ("PULSE_T0_HI", .pulseT0Hi), ("SETTLE_WINDOW", .settleWindow), ("PULSE_DURATION", .pulseDuration),
    ("MODES", .modes), ("CLOCK_RES", .clockRes), ("EDGE_CFG", .edgeCfg)]

/-- The register a name of the table stands for. -/
def tableRegister (cs : List Char) : List (String × PortReg) → Option PortReg
  | [] => none
  | (name, r) :: rest => if name.toList = cs then some r else tableRegister cs rest

/-- The register a name stands for; `MODE_TABLE<i>` has i from 0 to 255. -/
def registerNamed (cs : List Char) : Option PortReg :=
  match tableRegister cs registerNames with
  | some r => some r
  | none =>
    if cs.take 10 = "MODE_TABLE".toList then
      (digitsValue 10 (cs.drop 10)).bind fun i => if i < 256 then some (.modeTable (BitVec.ofNat 8 i)) else none
    else none

/-- The operand of BUS_RD and BUS_WR: a register name, or an integer from 0 to 0x7FF. -/
def portOperand (cs : List Char) : Option (BitVec 11) :=
  match registerNamed cs with
  | some r => some r.offset
  | none => (integerIn 0 0x7FF cs).map (BitVec.ofNat 11)

/-- The two halves of the 64-bit field whose low half is named (R109, R68). -/
def wideRegister (cs : List Char) : Option (PortReg × PortReg) :=
  match registerNamed cs with
  | some .debLastLo => some (.debLastLo, .debLastHi)
  | some .nowLo => some (.nowLo, .nowHi)
  | some .wgDueLo => some (.wgDueLo, .wgDueHi)
  | some .pulseT0Lo => some (.pulseT0Lo, .pulseT0Hi)
  | _ => none

/-! ## Lines and listings (R108) -/

/-- The operation of a mnemonic alone. -/
def plainOps (c : Config) (m : List Char) : Option (List Instr) :=
  if m = "RESET".toList then some [.reset]
  else if m = "EDGE_ISR".toList then some [.edgeIsr]
  else if m = "POP".toList then some [.pop]
  else if m = "ADVANCE".toList then some [.advance]
  else if m = "PULSE_ON".toList then some [.pulseOn]
  else if m = "PULSE_OFF".toList then some [.pulseOff]
  else if m = "RECONF".toList then some [.reconf false]
  else if m = "TICK".toList then some [.tick]
  else if m = "SERVICE".toList then some (serviceOps c false)
  else if m = "SERVICE_FAIL".toList then some (serviceOps c true)
  else none

/-- The operations of a mnemonic with an operand. -/
def operandOps (m arg : List Char) : Option (List Instr) :=
  if m = "PIN_SET".toList then
    if arg = "0".toList then some [.pinSet false] else if arg = "1".toList then some [.pinSet true] else none
  else if m = "CLK_ADV".toList then (integerIn 1 16777215 arg).map fun n => [.clkAdv (BitVec.ofNat 24 n)]
  else if m = "BUS_RD".toList then (portOperand arg).map fun o => [.busRd o]
  else if m = "BUS_WR".toList then (portOperand arg).map fun o => [.busWr o]
  else if m = "RECONF".toList then
    if arg = "ok".toList then some [.reconf false] else if arg = "fail".toList then some [.reconf true] else none
  else if m = "WAIT".toList then (integerIn 1 (2 ^ 64 - 1) arg).map waitOps
  else if m = "RD64".toList then (wideRegister arg).map fun r => rd64Ops r.1 r.2
  else none

/-- One line: nothing on a blank or comment line, one operation, or the expansion of a pseudo-instruction. -/
def assembleLine (c : Config) (line : List Char) : Option (List Instr) :=
  match lineWords line with
  | [] => some []
  | [m] => plainOps c m
  | [m, arg] => operandOps m arg
  | _ => none

/-- A listing, line after line (R108); the parameters give `SERVICE` its pulse duration. -/
def assemble (c : Config) (text : String) : Option (List Instr) :=
  (splitText (· == '\n') text.toList).foldr
    (fun line acc => (assembleLine c line).bind fun is => acc.map fun rest => is ++ rest) (some [])

/-- The byte stream of a listing (R74). -/
def assembleStream (c : Config) (text : String) : Option (List Byte) := (assemble c text).map encodeStream

end Sys2Proof.Machine
end

