-- ==== Sys2Proof/Tests/Slice0.lean ====
section
/-! SUPPORT. The model's own tests. Expected results come from the spec: its worked encodings (R111), its vectors
(95_test_vectors.md, named in each test), or a calculation from the rule named. Then one witness per statement that has
hypotheses: a concrete state and operands that meet them all. -/

namespace Sys2Proof.Tests

-- One theorem at a time: many kernel evaluations side by side exceed the sandbox's memory.
set_option Elab.async false

open Sys2Proof Sys2Proof.Machine

/-! ## Helpers -/

/-- Does the outcome answer a next state with a property? -/
def nextHas (o : Host.Outcome State Fault Refusal) (p : State → Bool) : Bool :=
  match o with
  | .next t => p t
  | .fault _ => false
  | .refused _ => false

/-- Is the outcome this refusal? -/
def refusedWith (o : Host.Outcome State Fault Refusal) (r : Refusal) : Bool :=
  match o with
  | .next _ => false
  | .fault _ => false
  | .refused q => decide (q = r)

/-- The reset state of the default parameters under an edge selection. -/
def base (sel : EdgeSel) : State := { State.reset with cfg := Config.default sel }

/-- The operations taken one after another, where each is well formed, enabled and answers a next state. -/
def runPath : List Instr → State → Option State
  | [], s => some s
  | i :: is, s =>
    if i.wellFormed && enabled i s then
      match exec i s with
      | .next t => runPath is t
      | .fault _ => none
      | .refused _ => none
    else none

theorem path_of_runPath {is : List Instr} {s t : State} (h : runPath is s = some t) : Path s is t := by
  induction is generalizing s with
  | nil =>
    simp only [runPath, Option.some.injEq] at h
    subst h
    exact .nil _
  | cons i is ih =>
    simp only [runPath] at h
    split at h
    · rename_i hc
      simp only [Bool.and_eq_true] at hc
      cases he : exec i s with
      | next u =>
        rw [he] at h
        exact .cons ⟨hc.1, hc.2, he⟩ (ih h)
      | fault f => rw [he] at h; exact absurd h (by simp)
      | refused r => rw [he] at h; exact absurd h (by simp)
    · exact absurd h (by simp)

theorem path_of_isSome {is : List Instr} {s : State} (h : (runPath is s).isSome = true) : ∃ t, Path s is t :=
  ⟨_, path_of_runPath (Option.some_get h).symm⟩

/-! ## Well-formedness (R100, R106) -/

theorem test_ill_formed_clkAdv_refused : (Instr.clkAdv 0).wellFormed = false := by decide

theorem test_well_formed_clkAdv : (Instr.clkAdv 1).wellFormed = true ∧ (Instr.clkAdv 16777215).wellFormed = true := by
  decide

/-! ## Decoding words written out from R98, R102 and 95_test_vectors.md 2.1 -/

theorem test_decode_env :
    decode 0b0000_0000_000000000000000000000001#32 = .operation (.pinSet true) ∧
    decode 0b0000_0001_000000011000011010100000#32 = .operation (.clkAdv 100000) ∧
    decode 0b0000_0010_000000000000000000000000#32 = .operation .reset ∧
    decode 0b0000_0011_000000000000011111111100#32 = .operation (.busRd 0x7FC) ∧
    decode 0b0000_0100_000000000000000001000100#32 = .operation (.busWr 0x044) := by decide +kernel

theorem test_decode_isr_tmr :
    decode 0b0001_0000_000000000000000000000000#32 = .operation .edgeIsr ∧
    decode 0b0011_0000_000000000000000000000000#32 = .operation .tick := by decide +kernel

theorem test_decode_task :
    decode 0b0010_0000_000000000000000000000000#32 = .operation .pop ∧
    decode 0b0010_0001_000000000000000000000000#32 = .operation .advance ∧
    decode 0b0010_0010_000000000000000000000000#32 = .operation .pulseOn ∧
    decode 0b0010_0011_000000000000000000000000#32 = .operation .pulseOff ∧
    decode 0b0010_0100_000000000000000000000001#32 = .operation (.reconf true) := by decide +kernel

theorem test_decode_invalid :
    decode 0x00000002#32 = .invalidWord ∧ decode 0x02000001#32 = .invalidWord ∧ decode 0x0F000000#32 = .invalidWord ∧
    decode 0x11000000#32 = .invalidWord ∧ decode 0x23000001#32 = .invalidWord ∧ decode 0x24000002#32 = .invalidWord ∧
    decode 0x03000002#32 = .operation (.busRd 0x002) := by decide +kernel

theorem test_decode_table_word :
    decodeTableWord 32 0x24000001 = some (.reconf true) ∧ decodeTableWord 32 0x01000000 = none := by decide +kernel

/-- R74: the least significant byte first; a partial word is refused. -/
theorem test_fetch_bytes :
    fetchWord [0xA0, 0x86, 0x01, 0x01, 0x00] = .operation (.clkAdv 100000) [0x00] ∧
    fetchWord [0x00, 0x00, 0x00] = .invalidWord [0x00, 0x00, 0x00] := by decide +kernel

/-! ## Refusals (R19) -/

theorem test_step_bad_config :
    refusedWith (step { base .both with cfg := { Config.default .both with capacity := 0 } }) .badConfig = true := by
  decide +kernel

theorem test_step_invalid_word :
    refusedWith (step ((base .both).withFetchWord 32 0x05000000)) (.invalidWord [0, 0, 0, 5]) = true := by decide +kernel

theorem test_step_without_offer : nextHas (step (base .both)) (fun t => decide (t = base .both)) = true := by
  decide +kernel

/-! ## Single steps (95_test_vectors.md) -/

/-- E2: a rising edge under FALLING raises nothing. -/
theorem test_pinSet_unconfigured :
    nextHas (exec (.pinSet true) (base .falling)) (fun t => t.inLevel && t.irqPending == 0) = true := by decide +kernel

/-- E4's second edge: the one-bit latch. -/
theorem test_pinSet_coalesces :
    nextHas (exec (.pinSet false)
      { base .both with cfg := { Config.default .both with irqCoalesce := true }, inLevel := true, irqPending := 1 })
      (fun t => !t.inLevel && t.irqPending == 1) = true := by decide +kernel

/-- E6: from CLOCK_LIMIT - 5, an advance of 5 reaches the limit. -/
theorem test_clkAdv_to_limit :
    nextHas (exec (.clkAdv 5) { base .both with now := 0xFFFFFFFDFFFFFFFB })
      (fun t => t.now == 0xFFFFFFFE00000000) = true := by decide +kernel

/-- E6: from CLOCK_LIMIT - 5, an advance of 6 is refused. -/
theorem test_clkAdv_over_limit :
    refusedWith (exec (.clkAdv 6) { base .both with now := 0xFFFFFFFDFFFFFFFB })
      (.clockOverflow 0xFFFFFFFDFFFFFFFB 6) = true := by decide +kernel

/-- E7. -/
theorem test_reset :
    nextHas (exec .reset { base .rising with
        mode := 1, task := .pulseHold, buz := true, fifo := [⟨5, true⟩], irqPending := 2, wgEn := true, led := true
        reconfErr := true, dropCount := 4, now := 777, inLevel := true, ctl := some ⟨5, true⟩ })
      (fun t => decide (t = { base .rising with now := 777, inLevel := true, hist := [.reset 777] })) = true := by
  decide +kernel

/-- E9: 0x1 + 0x4 + 0x10 + 0x20 + 0x40 + 0x300 + 0x800. -/
theorem test_busRd_status :
    nextHas (exec (.busRd 0x000) { base .rising with
        led := true, wgEn := true, inLevel := true, debValid := true, lastOutcome := .accepted, task := .pulseHold
        ctl := some ⟨0, false⟩, mode := 0 })
      (fun t => t.hist == [.read 0x000 0x00000B75 .ok]) = true := by decide +kernel

/-- E10. -/
theorem test_busRd_misaligned :
    nextHas (exec (.busRd 0x002) (base .rising)) (fun t => t.hist == [.read 0x002 0 .err]) = true := by decide +kernel

/-- E16. -/
theorem test_busWr :
    nextHas (exec (.busWr 0x000) (base .rising))
      (fun t => decide (t = { base .rising with hist := [.read 0x000 0 .err] })) = true := by decide +kernel

/-- E11 to E15: what the port reads. -/
theorem test_port_reads :
    memRead (base .rising) 0x048 = (0, .ok) ∧ memRead (base .rising) 0x400 = (0x0007A120, .ok) ∧
    memRead (base .rising) 0x408 = (0x0001E848, .ok) ∧ memRead (base .rising) 0x410 = (0, .ok) ∧
    memRead (base .rising) 0x03C = (0x00030004, .ok) ∧ memRead (base .falling) 0x044 = (0x00000001, .ok) ∧
    memRead { base .both with cfg := { Config.default .both with irqCoalesce := true, pinId := 0x2A } } 0x044
      = (0x00002A06, .ok) ∧
    memRead { base .rising with fifo := [⟨0, false⟩, ⟨1, true⟩] } 0x004 = (0x000A0002, .ok) ∧
    memRead { base .rising with now := 0x0000000123456789 } 0x01C = (0x00000001, .ok) := by decide +kernel

/-- F2 and F3 side by side: W - 1 rejects, W accepts (both with the level low). -/
theorem test_edgeIsr_window :
    nextHas (exec .edgeIsr { base .falling with irqPending := 1, debValid := true, debLast := 1000, now := 50999 })
      (fun t => t.lastOutcome == .rejected && t.debLast == 1000 && t.fifo == []) = true ∧
    nextHas (exec .edgeIsr { base .falling with irqPending := 1, debValid := true, debLast := 1000, now := 51000 })
      (fun t => t.lastOutcome == .accepted && t.debLast == 51000 && t.fifo == [⟨51000, false⟩]) = true := by
  decide +kernel

/-- F7: the window moves although the push fails. -/
theorem test_edgeIsr_full_channel :
    nextHas (exec .edgeIsr { base .both with
        cfg := { Config.default .both with capacity := 1 }, fifo := [⟨0, true⟩], debValid := true, debLast := 0
        now := 50000, irqPending := 1 })
      (fun t => t.debLast == 50000 && t.fifo == [⟨0, true⟩] && t.dropCount == 1 && t.lastOutcome == .dropped
        && t.hist == [.edge ⟨0, false, 50000⟩ .dropped]) = true := by decide +kernel

/-- Q5. -/
theorem test_pop_oldest :
    nextHas (exec .pop { base .falling with fifo := [⟨0, false⟩, ⟨60000, false⟩] })
      (fun t => t.fifo == [⟨60000, false⟩] && t.ctl == some ⟨0, false⟩ && t.task == .advance
        && t.hist == [.pop ⟨0, false⟩]) = true := by decide +kernel

/-- Q7: POP is not the agent's next operation. -/
theorem test_pop_elsewhere : enabled .pop { base .falling with task := .pulseHold, fifo := [⟨0, false⟩] } = false := by
  decide +kernel

/-- M1. -/
theorem test_advance_wraps :
    nextHas (exec .advance { base .rising with mode := 3, task := .advance })
      (fun t => t.mode == 0 && t.task == .pulseOn) = true := by decide +kernel

/-- M4. -/
theorem test_advance_wraps_at_256 :
    nextHas (exec .advance { base .rising with
        cfg := { Config.default .rising with modes := 256 }, mode := 255, task := .advance })
      (fun t => t.mode == 0) = true := by decide +kernel

/-- B1, later on the clock. -/
theorem test_pulseOn :
    nextHas (exec .pulseOn { base .rising with task := .pulseOn, now := 3200 })
      (fun t => t.buz && t.pulseT0 == 3200 && t.task == .pulseHold && t.hist == [.out .buz true 3200]) = true := by
  decide +kernel

/-- B2. -/
theorem test_pulseOff_early : enabled .pulseOff { base .rising with task := .pulseHold, now := 99999 } = false := by
  decide +kernel

/-- B3. -/
theorem test_pulseOff :
    nextHas (exec .pulseOff { base .rising with task := .pulseHold, buz := true, now := 100000 })
      (fun t => !t.buz && t.task == .reconf && t.hist == [.out .buz false 100000]) = true := by decide +kernel

/-- G3. -/
theorem test_reconf_fail :
    nextHas (exec (.reconf true) { base .rising with
        task := .reconf, mode := 1, now := 200000, wgEn := true, wgPeriod := 500000, wgDue := 300000, wgPhase := true
        led := true })
      (fun t => !t.wgEn && t.wgPeriod == 0 && t.wgDue == 0 && !t.wgPhase && !t.led && t.reconfErr && t.task == .pop
        && t.hist == [.out .led false 200000, .errReport .reconfFail, .reconf 1 (.enabled 0x0003D090) false]) = true := by
  decide +kernel

/-- G5: the same period again, restarted from low. -/
theorem test_reconf_restarts :
    nextHas (exec (.reconf false) { base .rising with
        task := .reconf, mode := 0, now := 550000, wgEn := true, wgPeriod := 500000, wgDue := 600000, wgPhase := true
        led := true })
      (fun t => t.wgEn && t.wgDue == 1050000 && !t.wgPhase && !t.led) = true := by decide +kernel

/-- T1. -/
theorem test_tick_early :
    enabled .tick { base .rising with wgEn := true, wgPeriod := 500000, wgDue := 600000, now := 599998 } = false := by
  decide +kernel

/-- T2. -/
theorem test_tick_at_resolution :
    nextHas (exec .tick { base .rising with wgEn := true, wgPeriod := 500000, wgDue := 600000, now := 599999 })
      (fun t => t.wgPhase && t.led && t.wgDue == 1100000 && t.hist == [.out .led true 599999]) = true := by
  decide +kernel

/-! ## The assembler (R108 to R110) -/

theorem test_assemble_lines :
    assemble (Config.default .rising)
        "PIN_SET 1 ; press\n\nBUS_RD MODE_TABLE3\nBUS_WR 0x044\nCLK_ADV 10000\nRECONF\nRECONF fail" =
      some [.pinSet true, .busRd 0x40C, .busWr 0x044, .clkAdv 10000, .reconf false, .reconf true] := by decide +kernel

/-- R109, and R108's assembly errors. -/
theorem test_assemble_pseudo :
    assemble (Config.default .rising) "WAIT 16777216\nRD64 NOW_LO" =
      some [.clkAdv 16777215, .clkAdv 1, .busRd 0x01C, .busRd 0x018, .busRd 0x01C] ∧
    assemble (Config.default .rising) "SERVICE_FAIL" =
      some [.pop, .advance, .pulseOn, .clkAdv 100000, .pulseOff, .reconf true] ∧
    assemble (Config.default .rising) "CLK_ADV 16777216" = none ∧
    assemble (Config.default .rising) "BUS_RD 0x800" = none ∧ assemble (Config.default .rising) "tick" = none := by
  decide +kernel

/-! ## Witnesses: the hypotheses of each statement, met together -/

/-- A running block, inside the invariants: an edge pending, an event waiting, the alarm running and due. -/
def busy : State :=
  { base .both with
    inLevel := true, now := 600000, led := true, irqPending := 1, debValid := true, debLast := 500000
    fifo := [⟨500000, false⟩], lastOutcome := .accepted, mode := 0, ctl := some ⟨1, true⟩, pulseT0 := 1000
    wgEn := true, wgPeriod := 500000, wgDue := 600001, wgPhase := true }

theorem busy_invariants : BlockInv busy := by
  constructor <;> decide +kernel

theorem witness_DecodeOfEncode : (Instr.clkAdv 1).wellFormed = true ∧ (Instr.busRd 0x7FF).wellFormed = true := by decide

theorem witness_EncodeOfDecode :
    decode 0x01000001#32 = .operation (.clkAdv 1) ∧ decode 0x24000001#32 = .operation (.reconf true) := by
  decide +kernel

theorem witness_ReservedWordsRejected : (0x001#11).toNat % 4 ≠ 0 ∧ (0x7FF#11).toNat % 4 ≠ 0 := by decide

theorem witness_DecoderAgreesWithOpcodeMap :
    (∀ p ∈ List.zip opcodeMap [Instr.pinSet true, .clkAdv 16777215, .reset, .busRd 0x7FF, .busWr 0, .edgeIsr, .pop,
        .advance, .pulseOn, .pulseOff, .reconf true, .tick],
      p.1.selects (encode p.2) = true ∧ decode (encode p.2) = .operation p.2) := by decide +kernel

theorem witness_WordsAreLittleEndian :
    (0x01002710#32).toNat = (0x10#8).toNat + 2 ^ 8 * (0x27#8).toNat + 2 ^ 16 * (0x00#8).toNat + 2 ^ 24 * (0x01#8).toNat ∧
    decode 0x01002710#32 = .operation (.clkAdv 10000) ∧
    (0xFFFFFFFF#32).toNat = (0xFF#8).toNat + 2 ^ 8 * (0xFF#8).toNat + 2 ^ 16 * (0xFF#8).toNat + 2 ^ 24 * (0xFF#8).toNat ∧
    decode 0xFFFFFFFF#32 = .invalidWord ∧
    ([0x00#8] : List Byte) ≠ [] ∧ ([0x00#8, 0x00#8, 0x00#8] : List Byte).length < 4 := by decide +kernel

theorem witness_StepRunsDecodedOperation :
    let s := { base .both with stream := [0x10, 0x27, 0x00, 0x01, 0xFF] }
    s.cfg.admitted = true ∧ s.stream = 0x10 :: 0x27 :: 0x00 :: 0x01 :: [0xFF] ∧
    (0x01002710#32).toNat = (0x10#8).toNat + 2 ^ 8 * (0x27#8).toNat + 2 ^ 16 * (0x00#8).toNat + 2 ^ 24 * (0x01#8).toNat ∧
    decode 0x01002710#32 = .operation (.clkAdv 10000) ∧ (Instr.clkAdv 10000).wellFormed = true := by decide +kernel

/-- A whole word that is no operation, and partial words of one and of three bytes. -/
theorem witness_InvalidWordRefused :
    (let s := { base .both with stream := [0x02, 0x00, 0x00, 0x00] }
     s.cfg.admitted = true ∧ s.stream = 0x02 :: 0x00 :: 0x00 :: 0x00 :: [] ∧
     (0x00000002#32).toNat =
       (0x02#8).toNat + 2 ^ 8 * (0x00#8).toNat + 2 ^ 16 * (0x00#8).toNat + 2 ^ 24 * (0x00#8).toNat ∧
     decode 0x00000002#32 = .invalidWord) ∧
    (let s := { base .both with stream := [0x00] }
     s.cfg.admitted = true ∧ s.stream ≠ [] ∧ s.stream.length < 4) ∧
    (let s := { base .both with stream := [0x00, 0x00, 0x00] }
     s.cfg.admitted = true ∧ s.stream ≠ [] ∧ s.stream.length < 4) := by decide +kernel

/-- An entry whose period is the clock resolution itself is just outside R14. -/
theorem witness_ConfigurationsAdmitted :
    ({ Config.default .both with modeTable := [.enabled 1, .disabled, .disabled, .disabled] }).admitted = false ∧
    ({ Config.default .both with modeTable := [.enabled 2, .disabled, .disabled, .disabled] }).admitted = true := by
  decide +kernel

theorem witness_StreamRunsTheInterleaving :
    (base .both).cfg.admitted = true ∧ ∃ t, Path (base .both) [.pinSet true, .edgeIsr, .pop, .advance, .clkAdv 1] t :=
  ⟨by decide +kernel, path_of_isSome (by decide +kernel)⟩

/-- A configured rising edge that is counted, a configured falling edge that is latched, and an edge not configured. -/
theorem witness_PinSetRaisesConfiguredEdges :
    (let s := base .both
     s.inLevel = false ∧ (s.cfg.edgeSel = .rising ∨ s.cfg.edgeSel = .both) ∧ s.cfg.irqCoalesce = false) ∧
    (let s := { busy with cfg := { busy.cfg with irqCoalesce := true } }
     s.inLevel = true ∧ (s.cfg.edgeSel = .falling ∨ s.cfg.edgeSel = .both) ∧ s.cfg.irqCoalesce = true) ∧
    (let s := base .falling
     ¬ ((s.inLevel = false ∧ true = true ∧ (s.cfg.edgeSel = .rising ∨ s.cfg.edgeSel = .both)) ∨
      (s.inLevel = true ∧ true = false ∧ (s.cfg.edgeSel = .falling ∨ s.cfg.edgeSel = .both)))) := by decide +kernel

theorem witness_ClkAdvMovesTheClock :
    (({ base .both with now := 0xFFFFFFFDFFFFFFFB }).now.toNat + (5#24).toNat ≤ 2 ^ 64 - 2 ^ 33) ∧
    (2 ^ 64 - 2 ^ 33 < ({ base .both with now := 0xFFFFFFFDFFFFFFFB }).now.toNat + (6#24).toNat) := by decide +kernel

theorem witness_BusRdAnswersTheRegister : (0x7FC#11).toNat % 4 = 0 ∧ (0x7FD#11).toNat % 4 ≠ 0 := by decide

/-- Elapsed W - 1; elapsed W with room; elapsed W at a full channel. -/
theorem witness_EdgeIsrSamplesFiltersAndPushes :
    let r := { busy with now := 549999 }
    let a := { busy with now := 550000 }
    let d := { busy with now := 550000, cfg := { busy.cfg with capacity := 1 } }
    (0 < r.irqPending ∧ r.debValid = true ∧ (r.now - r.debLast).toNat < r.cfg.settleWindowUs.toNat) ∧
    (0 < a.irqPending ∧ ¬ (a.debValid = true ∧ (a.now - a.debLast).toNat < a.cfg.settleWindowUs.toNat) ∧
      a.fifo.length < a.cfg.capacity) ∧
    (0 < d.irqPending ∧ ¬ (d.debValid = true ∧ (d.now - d.debLast).toNat < d.cfg.settleWindowUs.toNat) ∧
      d.cfg.capacity ≤ d.fifo.length) := by decide +kernel

theorem witness_PopTakesTheOldestEvent : busy.task = .pop ∧ busy.fifo = ⟨500000, false⟩ :: [] := by decide +kernel

theorem witness_AdvanceStepsTheMode : ({ busy with task := .advance }).task = .advance := rfl

theorem witness_PulseOnRaisesTheBuzzer : ({ busy with task := .pulseOn }).task = .pulseOn := rfl

theorem witness_PulseOffLowersTheBuzzer :
    let s := { busy with task := .pulseHold, buz := true, pulseT0 := 500000 }
    s.task = .pulseHold ∧ s.cfg.pulseDurationUs.toNat ≤ s.now.toNat - s.pulseT0.toNat := by decide +kernel

/-- A disabled entry, and an enabled one. -/
theorem witness_ReconfAppliesTheMode :
    (let s := { busy with task := .reconf, mode := 3 }
     s.task = .reconf ∧ s.cfg.modeTable[s.mode.toNat]? = some .disabled ∧ s.cfg.specOf s.mode.toNat = .disabled) ∧
    (let s := { busy with task := .reconf, mode := 0 }
     s.task = .reconf ∧ s.cfg.specOf s.mode.toNat = .enabled 500000) := by decide +kernel

theorem witness_TickTogglesTheLed :
    busy.wgEn = true ∧ busy.wgDue.toNat ≤ busy.now.toNat + busy.cfg.clockResUs.toNat := by decide +kernel

theorem witness_NotEnabledWritesNothing :
    enabled .pop (base .both) = false ∧ enabled .edgeIsr (base .both) = false ∧ enabled .tick (base .both) = false := by
  decide +kernel

theorem witness_OnlyTheClockLimitRefuses :
    ∃ r, exec (.clkAdv 6) { base .both with now := 0xFFFFFFFDFFFFFFFB } = .refused r := ⟨_, rfl⟩

theorem witness_EnvironmentFrame :
    (∃ t, exec (.pinSet false) busy = .next t) ∧ (∃ t, exec (.clkAdv 1) busy = .next t) ∧
    (∃ t, exec (.busRd 0x7FD) busy = .next t) ∧ (∃ t, exec (.busWr 0x000) busy = .next t) ∧
    (∃ t, exec .reset busy = .next t) := ⟨⟨_, rfl⟩, ⟨_, rfl⟩, ⟨_, rfl⟩, ⟨_, rfl⟩, ⟨_, rfl⟩⟩

theorem witness_InterruptFrame :
    enabled .edgeIsr busy = true ∧ enabled .tick busy = true ∧
    (∃ t, exec .edgeIsr busy = .next t) ∧ ∃ t, exec .tick busy = .next t :=
  ⟨by decide +kernel, by decide +kernel, ⟨_, rfl⟩, ⟨_, rfl⟩⟩

theorem witness_TaskFrame :
    (∃ t, exec .pop busy = .next t) ∧ (∃ t, exec .advance { busy with task := .advance } = .next t) ∧
    (∃ t, exec .pulseOn { busy with task := .pulseOn } = .next t) ∧
    (∃ t, exec .pulseOff { busy with task := .pulseHold, buz := true } = .next t) ∧
    (∃ t, exec (.reconf true) { busy with task := .reconf } = .next t) :=
  ⟨⟨_, rfl⟩, ⟨_, rfl⟩, ⟨_, rfl⟩, ⟨_, rfl⟩, ⟨_, rfl⟩⟩

theorem witness_StatusRegister :
    (∃ t, exec .reset busy = .next t) ∧ busy.cfg.admitted = true ∧ ∃ t, exec (.busWr 0x000) busy = .next t :=
  ⟨⟨_, rfl⟩, by decide +kernel, ⟨_, rfl⟩⟩

theorem witness_StateRegisters :
    busy.fifo.length ≤ busy.cfg.capacity ∧ busy.cfg.capacity ≤ 65535 ∧ (∃ t, exec .reset busy = .next t) ∧
    ({ Config.default .both with capacity := 65535 }).capacity ≤ 65535 ∧ BlockInv (base .both) ∧
    (base .both).wgEn = false :=
  ⟨by decide +kernel, by decide +kernel, ⟨_, rfl⟩, by decide +kernel, by constructor <;> decide +kernel, rfl⟩

theorem witness_ParameterRegisters : busy.cfg.admitted = true ∧ ∃ t, exec .edgeIsr busy = .next t :=
  ⟨by decide +kernel, ⟨_, rfl⟩⟩

/-- An enabled entry, the disabled last one, and the first index past the table. -/
theorem witness_ModeTableWindow :
    busy.cfg.admitted = true ∧ (0 < 256 ∧ busy.cfg.modeTable[0]? = some (.enabled 500000)) ∧
    (3 < 256 ∧ busy.cfg.modeTable[3]? = some .disabled) ∧ (4 < 256 ∧ busy.cfg.modes ≤ 4) ∧
    (255 < 256 ∧ busy.cfg.modes ≤ 255) := by decide +kernel

/-- Both ends of the reserved range, and the first offset past the table. -/
theorem witness_ReservedOffsetsReadZero :
    (0x048#11).toNat % 4 = 0 ∧ 0x048 ≤ (0x048#11).toNat ∧ (0x048#11).toNat ≤ 0x3FC ∧ (0x3FC#11).toNat % 4 = 0 ∧
    0x048 ≤ (0x3FC#11).toNat ∧ (0x3FC#11).toNat ≤ 0x3FC ∧ (0x410#11).toNat % 4 = 0 ∧
    0x400 + 4 * busy.cfg.modes ≤ (0x410#11).toNat := by decide +kernel

theorem witness_PortReadsAreIdempotent : ∃ t, exec (.busRd 0x018) busy = .next t := ⟨_, rfl⟩

theorem witness_RegisterNamesAreOneToOne :
    (0x7FC#11).toNat % 4 = 0 ∧ PortReg.ofOffset 0x7FC#11 = some (.modeTable 255) ∧
    (0x044#11).toNat % 4 = 0 ∧ PortReg.ofOffset 0x044#11 = some .edgeCfg := by decide +kernel

theorem witness_PackedLayouts : WaveformSpec.enabled 1 ≠ .enabled 0 ∧ WaveformSpec.disabled ≠ .enabled 0 := by decide

/-- A start state at the clock limit with the pin high. -/
theorem witness_PowerOnMeetsTheInvariants : Start (State.powerOn (Config.default .falling) true 0xFFFFFFFE00000000 []) :=
  ⟨_, _, _, _, by decide +kernel, by decide +kernel, rfl⟩

/-- `busy` with a TICK offered. -/
theorem witness_StepKeepsTheInvariants :
    BlockInv { busy with stream := encodeStream [.tick] } ∧
    ∃ t, step { busy with stream := encodeStream [.tick] } = .next t :=
  ⟨by constructor <;> decide +kernel, ⟨_, rfl⟩⟩

theorem witness_ReachableStatesMeetTheInvariants : ∃ s, Reachable s ∧ s.task = .advance := by
  refine ⟨_, ⟨State.reset, [.pinSet true, .edgeIsr, .pop],
    ⟨_, _, _, _, by decide +kernel, by decide +kernel, rfl⟩, path_of_runPath rfl⟩, rfl⟩

/-- A block that has taken an edge, with the edge's record; an operation is offered. -/
def recorded : State :=
  { base .both with
    inLevel := true, now := 50000, irqPending := 1, debValid := true, fifo := [⟨0, true⟩], lastOutcome := .accepted
    stream := encodeStream [.edgeIsr], hist := [.reset 0, .edge ⟨0, true, 0⟩ .accepted] }

theorem recorded_invariants : BlockInv recorded := by
  constructor <;> decide +kernel

theorem witness_StepKeepsTheChannelInOrder : ChannelInOrder recorded ∧ ∃ t, step recorded = .next t :=
  ⟨rfl, ⟨_, rfl⟩⟩

theorem witness_StepKeepsEdgesSpaced : BlockInv recorded ∧ DebounceSpaced recorded ∧ ∃ t, step recorded = .next t :=
  ⟨recorded_invariants, ⟨List.pairwise_singleton _ _, rfl⟩, ⟨_, rfl⟩⟩

theorem witness_StepKeepsDropsCounted : DropsCounted recorded ∧ ∃ t, step recorded = .next t := ⟨rfl, ⟨_, rfl⟩⟩

/-- After a POP: the ADVANCE is still due. -/
theorem witness_StepKeepsTheModeCount :
    let s := { base .both with
      task := .advance, ctl := some ⟨0, true⟩, stream := encodeStream [.advance]
      hist := [.edge ⟨0, true, 0⟩ .accepted, .pop ⟨0, true⟩] }
    BlockInv s ∧ ModeCountsEvents s ∧ ∃ t, step s = .next t :=
  ⟨by constructor <;> decide +kernel, rfl, ⟨_, rfl⟩⟩

/-- In a pulse whose duration has just elapsed, PULSE_OFF offered. -/
theorem witness_StepKeepsPulsesHeld :
    let s := { base .both with
      task := .pulseHold, buz := true, pulseT0 := 7, now := 100007, stream := encodeStream [.pulseOff]
      hist := [.out .buz true 7] }
    BlockInv s ∧ PulsesHeld s ∧ ∃ t, step s = .next t := by
  refine ⟨by constructor <;> decide +kernel, ⟨?_, ?_, ?_, ?_⟩, ⟨_, rfl⟩⟩
  · intro l v t v' t' r h
    have := congrArg List.length h
    simp [buzWrites, sinceReset, Record.buzWrite] at this
    omega
  · intro l v t h
    simp only [buzWrites, sinceReset, List.foldl_cons, List.foldl_nil, List.nil_append, List.filterMap_cons,
      Record.buzWrite, List.filterMap_nil] at h
    cases l with
    | nil =>
      simp only [List.nil_append, List.cons.injEq, Prod.mk.injEq, and_true] at h
      exact ⟨h.1, fun _ => h.2.symm⟩
    | cons x xs =>
      have := congrArg List.length h
      simp at this
  · intro v t r h
    simp only [buzWrites, sinceReset, List.foldl_cons, List.foldl_nil, List.nil_append, List.filterMap_cons,
      Record.buzWrite, List.filterMap_nil, List.cons.injEq, Prod.mk.injEq] at h
    exact h.1.1.symm
  · intro h
    simp [buzWrites, sinceReset, Record.buzWrite] at h

theorem witness_StepKeepsLedWrites :
    let s := { busy with stream := encodeStream [.tick], hist := [.out .led false 5, .out .led true 9] }
    LedShowsLastWrite s ∧ ∃ t, step s = .next t := ⟨rfl, ⟨_, rfl⟩⟩

theorem witness_OnlyClkAdvMovesTheClock :
    busy.now.toNat ≤ clockLimit ∧ ∃ t, Path busy [.clkAdv 7, .tick, .clkAdv 16777215, .edgeIsr] t :=
  ⟨by decide +kernel, path_of_isSome (by decide +kernel)⟩

theorem witness_HistoryGrowsAndParametersStay : ∃ t, step { busy with stream := encodeStream [.reset] } = .next t :=
  ⟨_, rfl⟩

theorem witness_TaskLoop :
    Instr.agent .pop = .task ∧ enabled .pop busy = true ∧ Instr.agent (.reconf false) = .task ∧
    enabled (.reconf false) { busy with task := .reconf } = true := by decide +kernel

theorem witness_PushesKeepTheOldest :
    busy.fifo.length ≤ busy.cfg.capacity ∧
    ({ busy with cfg := { busy.cfg with capacity := 1 } }).fifo.length ≤ 1 := by decide +kernel

/-- One event serviced: one ADVANCE; and N of them in a row of an N = 1 block. -/
theorem witness_ModeCyclesWithPeriodN :
    (BlockInv busy ∧ (∃ t, Path busy [.pop, .advance, .pulseOn] t) ∧ Instr.reset ∉ [Instr.pop, .advance, .pulseOn]) ∧
    (let s := { base .both with
      cfg := { Config.default .both with modes := 1, modeTable := [.disabled], modeReset := 0 }, mode := 0, task := .advance }
     BlockInv s ∧ (∃ t, Path s [.advance] t) ∧ [Instr.advance].count .advance = s.cfg.modes) :=
  ⟨⟨busy_invariants, path_of_isSome (by decide +kernel), by decide⟩,
    by constructor <;> decide +kernel, path_of_isSome (by decide +kernel), by decide +kernel⟩

/-- Three invocations at one clock value, with pin changes, a TICK and a POP between the first and the last. -/
theorem witness_BacklogIsFilteredToTheFirst :
    let s := { busy with irqPending := 2 }
    let is := [Instr.pinSet false, .tick, .edgeIsr, .pop]
    ∃ t u v, 0 < s.cfg.settleWindowUs.toNat ∧ Takes .edgeIsr s t ∧ Path t is u ∧
      (∀ delta, Instr.clkAdv delta ∉ is) ∧ Instr.reset ∉ is ∧ Takes .edgeIsr u v :=
  ⟨_, _, _, by decide +kernel, ⟨rfl, by decide +kernel, rfl⟩, path_of_runPath rfl, fun _ => by simp, by decide,
    ⟨rfl, by decide +kernel, rfl⟩⟩

theorem witness_NoTickBeforeTheClockAdvances :
    BlockInv { busy with task := .reconf } ∧
    (∃ t, Takes (.reconf false) { busy with task := .reconf } t ∧ ∃ u, Path t [.edgeIsr, .pop, .advance] u) ∧
    ∀ delta, Instr.clkAdv delta ∉ [Instr.edgeIsr, .pop, .advance] :=
  ⟨by constructor <;> decide +kernel,
    ⟨_, ⟨rfl, by decide +kernel, rfl⟩, path_of_isSome (by decide +kernel)⟩, fun _ => by simp⟩

/-- T4: two missed periods caught up at one clock value. -/
theorem witness_TicksAtOneClockValueAreBounded :
    let s := { busy with now := 1100000, wgDue := 600000 }
    BlockInv s ∧ ∃ t, Path s (List.replicate 2 .tick) t :=
  ⟨by constructor <;> decide +kernel, path_of_isSome (by decide +kernel)⟩

theorem witness_DueTimesAreWholePeriods :
    BlockInv busy ∧ busy.wgEn = true ∧ (∃ t, Path busy [.tick, .clkAdv 500000, .tick, .pop] t) ∧
    Instr.reset ∉ [Instr.tick, .clkAdv 500000, .tick, .pop] ∧
    ∀ fail, Instr.reconf fail ∉ [Instr.tick, .clkAdv 500000, .tick, .pop] :=
  ⟨busy_invariants, rfl, path_of_isSome (by decide +kernel), by decide, fun _ => by simp⟩

theorem witness_DisabledNeverToggles :
    let is := [Instr.pinSet true, .clkAdv 16777215, .edgeIsr, .pop, .advance, .reset]
    BlockInv (base .both) ∧ (base .both).wgEn = false ∧ (∃ t, Path (base .both) is t) ∧ ∀ fail, Instr.reconf fail ∉ is :=
  ⟨by constructor <;> decide +kernel, rfl, path_of_isSome (by decide +kernel), fun _ => by simp⟩

theorem witness_EdgeIsrCommutesWithTick :
    enabled .edgeIsr busy = true ∧ enabled .tick busy = true ∧
    (∃ t u, Takes .edgeIsr busy t ∧ Takes .tick t u) ∧ ∃ t u, Takes .tick busy t ∧ Takes .edgeIsr t u :=
  ⟨by decide +kernel, by decide +kernel,
    ⟨_, _, ⟨rfl, by decide +kernel, rfl⟩, ⟨rfl, by decide +kernel, rfl⟩⟩,
    ⟨_, _, ⟨rfl, by decide +kernel, rfl⟩, ⟨rfl, by decide +kernel, rfl⟩⟩⟩

/-- Another event waiting, another one received, another history; a step, and a refusal at the clock limit. -/
theorem witness_EventFieldsAndHistoryAreNotRead :
    let other := { busy with fifo := [⟨3, true⟩], ctl := some ⟨9, false⟩, hist := [.pop ⟨9, false⟩] }
    busy.blind = other.blind ∧ (∃ t, exec .pop busy = .next t) ∧
    ({ busy with now := 0xFFFFFFFE00000000 }).blind = { other with now := 0xFFFFFFFE00000000 }.blind ∧
    ∃ r, exec (.clkAdv 1) { busy with now := 0xFFFFFFFE00000000 } = .refused r := ⟨rfl, ⟨_, rfl⟩, rfl, ⟨_, rfl⟩⟩

/-- PR4: the clock stands at a carry into HI before the first read, and moves between the reads. -/
theorem witness_HiLoHiReadsTheClock :
    let s := { base .both with now := 0x0000000100000000 }
    s.now.toNat ≤ clockLimit ∧ ∃ s₂ s₃, Path s [.clkAdv 5, .busRd 0x01C] s₂ ∧ Path s₂ [.clkAdv 9] s₃ ∧
      memRead s PortReg.nowHi.offset = (1, .ok) ∧ memRead s₂ PortReg.nowLo.offset = (5, .ok) ∧
      memRead s₃ PortReg.nowHi.offset = (1, .ok) :=
  ⟨by decide +kernel, _, _, path_of_runPath rfl, path_of_runPath rfl, by decide +kernel, by decide +kernel,
    by decide +kernel⟩

/-- The run of `witness_PendingEdgeIsServiced`: one pending edge inside the window, then the pin written again and again
with the level it has. -/
def onePending : State :=
  { base .both with irqPending := 1, debValid := true, debLast := 0, now := 1 }

/-- `onePending` once the edge is serviced. -/
def serviced : State := onePending.takeEdge

def oneEdgeRun : Run where
  state
    | 0 => onePending
    | _ + 1 => serviced
  op
    | 0 => .edgeIsr
    | _ + 1 => .pinSet false
  taken
    | 0 => ⟨rfl, by decide +kernel, rfl⟩
    | _ + 1 => ⟨rfl, rfl, rfl⟩

/-- The two ways TASK can wait: at an empty channel, and in a pulse one microsecond short of its duration. -/
theorem witness_WhenOnlyTheEnvironmentMoves :
    (let s := base .both
     s.irqPending = 0 ∧ s.wgEn = false ∧ s.task = .pop ∧ s.fifo = []) ∧
    (let s := { base .both with task := .pulseHold, buz := true, now := 99999 }
     s.irqPending = 0 ∧ s.task = .pulseHold ∧ s.now.toNat - s.pulseT0.toNat < s.cfg.pulseDurationUs.toNat) := by
  decide +kernel

theorem witness_PendingEdgeIsServiced :
    oneEdgeRun.WeaklyFair ∧ 0 < (oneEdgeRun.state 0).irqPending ∧ ∀ k, 0 ≤ k → oneEdgeRun.op k ≠ .reset := by
  refine ⟨fun i n hi he => ?_, by decide +kernel, fun k _ => ?_⟩
  · have h := he (n + 1) (by omega)
    have hs : enabled i serviced = true := h
    cases i with
    | reconf fail => cases fail <;> exact absurd hs (by decide +kernel)
    | pinSet level => exact absurd rfl hi
    | clkAdv delta => exact absurd rfl hi
    | reset => exact absurd rfl hi
    | busRd offset => exact absurd rfl hi
    | busWr offset => exact absurd rfl hi
    | edgeIsr => exact absurd hs (by decide +kernel)
    | pop => exact absurd hs (by decide +kernel)
    | advance => exact absurd hs (by decide +kernel)
    | pulseOn => exact absurd hs (by decide +kernel)
    | pulseOff => exact absurd hs (by decide +kernel)
    | tick => exact absurd hs (by decide +kernel)
  · cases k <;> simp [oneEdgeRun]

end Sys2Proof.Tests
end

section
/-! Which configurations are admitted (R14), and what `step` answers in any other (R19). -/

namespace Sys2Proof

/-- R14 for one entry of `MODE_TABLE`: only an enabled one has a bound to meet. -/
theorem WaveformSpec.admittedFor_iff (clockRes : Word) (spec : WaveformSpec) :
    spec.admittedFor clockRes = true ↔ ∀ p, spec = .enabled p → clockRes.toNat < p.toNat := by
  cases spec with
  | disabled => simp [admittedFor]
  | enabled period => simp [admittedFor]

/-- R14 for the whole `MODE_TABLE`. -/
theorem all_admittedFor_iff (clockRes : Word) (table : List WaveformSpec) :
    table.all (WaveformSpec.admittedFor clockRes) = true ↔
      ∀ p, WaveformSpec.enabled p ∈ table → clockRes.toNat < p.toNat := by
  simp only [List.all_eq_true, WaveformSpec.admittedFor_iff]
  constructor
  · intro h p hp
    exact h _ hp p rfl
  · rintro h _ hspec p rfl
    exact h p hspec

/-- R14: the bounds an admitted configuration meets, one by one. -/
theorem Config.admitted_iff (c : Config) :
    c.admitted = true ↔
      1 ≤ c.modes ∧ c.modes ≤ 256 ∧ 1 ≤ c.capacity ∧ c.capacity ≤ 65535 ∧ 1 ≤ c.clockResUs.toNat ∧
        c.modeReset < c.modes ∧ c.modeTable.length = c.modes ∧
        ∀ p, WaveformSpec.enabled p ∈ c.modeTable → c.clockResUs.toNat < p.toNat := by
  simp only [admitted, Bool.and_eq_true, decide_eq_true_eq, all_admittedFor_iff, and_assoc]

namespace Machine

/-- R14, R19: whatever its stream offers, a state whose configuration is not admitted has no step. -/
theorem step_of_not_admitted {s : State} (h : s.cfg.admitted = false) : step s = .refused .badConfig :=
  if_neg (by simp [h])

/-- Settles O10: R14's bounds entry by entry of the table, and the guard at the head of `step`. -/
theorem configurationsAdmitted : Obligations.ConfigurationsAdmitted :=
  ⟨Config.admitted_iff, fun _ => step_of_not_admitted⟩

end Machine
end Sys2Proof
end

section
/-! What the status port answers, register by register (R47 to R58): at each named offset its register, at every other
aligned offset 0. -/

namespace Sys2Proof.Machine

/-! ## Named offsets -/

/-- R67, R75: every named register stands at an aligned offset. -/
theorem PortReg.offset_aligned (r : PortReg) : r.offset.toNat % 4 = 0 := by
  cases r with
  | modeTable i =>
    simp only [offset, BitVec.toNat_ofNat]
    omega
  | _ => rfl

/-- R57, R75: from 0x400 on, every word is an entry of the MODE_TABLE window. -/
theorem PortReg.ofOffset_window {a : BitVec 11} (h : 0x400 ≤ a.toNat) :
    ofOffset a = some (.modeTable (BitVec.ofNat 8 ((a.toNat - 0x400) / 4))) :=
  if_pos h

/-- R75: at a register's offset stands that register. -/
theorem PortReg.ofOffset_offset (r : PortReg) : ofOffset r.offset = some r := by
  cases r with
  | modeTable i =>
    have hi := i.isLt
    have ha : (PortReg.modeTable i).offset.toNat = 0x400 + 4 * i.toNat := by
      simp only [offset, BitVec.toNat_ofNat]
      omega
    have hdiv : (0x400 + 4 * i.toNat - 0x400) / 4 = i.toNat := by omega
    rw [ofOffset_window (by omega), ha, hdiv, BitVec.ofNat_toNat, BitVec.setWidth_eq]
  | _ => rfl

/-- R70: a read at a register's offset answers what the register reads, with OK. -/
theorem memRead_offset (r : PortReg) (s : State) : memRead s r.offset = (r.read s, .ok) := by
  rw [memRead_aligned r.offset_aligned, portReg, PortReg.ofOffset_offset]

/-! ## Registers of several fields -/

/-- A word is the word of the number it holds. -/
theorem word_eq_ofNat {w : Word} {n : Nat} (h : w.toNat = n) : w = BitVec.ofNat 32 n := by
  rw [← h, BitVec.ofNat_toNat, BitVec.setWidth_eq]

/-- R68: the two halves of a 64-bit field make up its value. -/
theorem halves_toNat (v : Time) : (hiHalf v).toNat * 2 ^ 32 + (loHalf v).toNat = v.toNat := by
  rw [hiHalf_toNat, loHalf_toNat]
  omega

@[simp] theorem sat32_zero : sat32 0 = 0#32 := rfl

@[simp] theorem loHalf_zero : loHalf 0#64 = 0#32 := rfl

@[simp] theorem hiHalf_zero : hiHalf 0#64 = 0#32 := by decide

/-- R48: FIFO_STATUS as the sum of its fields, each cut to its 16 bits. -/
theorem fifoStatusWord_toNat (s : State) :
    (fifoStatusWord s).toNat = s.cfg.capacity % 2 ^ 16 * 2 ^ 16 + s.fifo.length % 2 ^ 16 := by
  simp only [fifoStatusWord, BitVec.toNat_append, BitVec.toNat_ofNat]
  rw [← Nat.shiftLeft_add_eq_or_of_lt (by omega), Nat.shiftLeft_eq]

/-- R48, R45 (a): a channel and a capacity within their bounds show whole in FIFO_STATUS. -/
theorem fifoStatusWord_toNat_of_le {s : State} (hf : s.fifo.length ≤ s.cfg.capacity) (hc : s.cfg.capacity ≤ 65535) :
    (fifoStatusWord s).toNat = s.cfg.capacity * 2 ^ 16 + s.fifo.length := by
  rw [fifoStatusWord_toNat]
  omega

/-- R56: MODES as the sum of its fields, each cut to its width. -/
theorem modesWord_toNat (c : Config) :
    (modesWord c).toNat = c.modeReset % 2 ^ 8 * 2 ^ 16 + c.modes % 2 ^ 16 := by
  simp only [modesWord, BitVec.toNat_append, BitVec.toNat_ofNat]
  rw [← Nat.shiftLeft_add_eq_or_of_lt (by omega), ← Nat.shiftLeft_add_eq_or_of_lt (by omega)]
  simp only [Nat.shiftLeft_eq]
  omega

/-- R56: EDGE_CFG as the sum of its fields. -/
theorem edgeCfgWord_toNat (c : Config) :
    (edgeCfgWord c).toNat = c.pinId.toNat * 2 ^ 8 + c.irqCoalesce.toNat * 4 + c.edgeSel.code.toNat := by
  have hp := c.pinId.isLt
  have hb := Bool.toNat_lt c.irqCoalesce
  have he := c.edgeSel.code.isLt
  simp only [edgeCfgWord, BitVec.toNat_append, BitVec.toNat_ofBool, BitVec.toNat_ofNat]
  rw [← Nat.shiftLeft_add_eq_or_of_lt (by omega), ← Nat.shiftLeft_add_eq_or_of_lt (by omega),
    ← Nat.shiftLeft_add_eq_or_of_lt (by omega), ← Nat.shiftLeft_add_eq_or_of_lt (by omega)]
  simp only [Nat.shiftLeft_eq]
  omega

/-! ## State registers (R48 to R55) -/

/-- The registers that RESET leaves reading 0 (R246): the counters, the debounce reference, the alarm and the pulse. -/
def resetZeroRegs : List PortReg :=
  [.dropCount, .irqPending, .debLastLo, .debLastHi, .wgPeriod, .wgDueLo, .wgDueHi, .pulseT0Lo, .pulseT0Hi]

theorem memRead_resetZeroRegs (s : State) (h : Record) :
    ∀ a ∈ resetZeroRegs.map PortReg.offset, memRead (s.resetState.record h) a = (0, .ok) := by
  refine List.forall_mem_map.2 fun r hr => ?_
  have hread : r.read (s.resetState.record h) = 0 := by
    simp only [resetZeroRegs, List.mem_cons, List.not_mem_nil, or_false] at hr
    rcases hr with rfl | rfl | rfl | rfl | rfl | rfl | rfl | rfl | rfl <;> simp [PortReg.read]
  rw [memRead_offset, hread]

/-- R48, R246: RESET empties the channel, so FIFO_STATUS shows the capacity alone. -/
theorem fifoStatusWord_reset {s : State} (hc : s.cfg.capacity ≤ 65535) (h : Record) :
    fifoStatusWord (s.resetState.record h) = BitVec.ofNat 32 (s.cfg.capacity * 2 ^ 16) := by
  refine word_eq_ofNat ?_
  rw [fifoStatusWord_toNat, State.record_cfg, State.resetState_cfg, State.record_fifo, State.resetState_fifo,
    List.length_nil]
  omega

/-- Settles O30: each offset by its register, the 64-bit ones by their halves, and the fields RESET writes. -/
theorem stateRegisters : Obligations.StateRegisters := by
  refine ⟨fun s hf hc => ?_, fun s hinv hdis => ?_, fun s t ht => ?_⟩
  · exact ⟨_, _, _, _, _, _, _, _, _, _, _, _,
      memRead_offset .fifoStatus s, fifoStatusWord_toNat_of_le hf hc,
      memRead_offset .dropCount s, rfl,
      memRead_offset .irqPending s, sat32_toNat s.irqPending,
      memRead_offset .debLastLo s, memRead_offset .debLastHi s, halves_toNat s.debLast,
      memRead_offset .nowLo s, memRead_offset .nowHi s, halves_toNat s.now,
      memRead_offset .wgPeriod s, rfl,
      memRead_offset .wgDueLo s, memRead_offset .wgDueHi s, halves_toNat s.wgDue,
      memRead_offset .pulseT0Lo s, memRead_offset .pulseT0Hi s, halves_toNat s.pulseT0⟩
  · obtain ⟨hperiod, -, -⟩ := hinv.disabledNormal hdis
    exact (memRead_offset .wgPeriod s).trans (congrArg (·, Resp.ok) hperiod)
  · obtain rfl := execReset_next ht
    refine ⟨fun hc => ?_, memRead_resetZeroRegs s _, ?_, ?_⟩
    · exact (memRead_offset .fifoStatus _).trans (congrArg (·, Resp.ok) (fifoStatusWord_reset hc _))
    · exact (memRead_offset .nowLo _).trans (memRead_offset .nowLo s).symm
    · exact (memRead_offset .nowHi _).trans (memRead_offset .nowHi s).symm

/-! ## Parameter registers (R56) -/

/-- The registers of R56. -/
def parameterRegs : List PortReg := [.settleWindow, .pulseDuration, .modes, .clockRes, .edgeCfg]

/-- R56: what the registers of R56 read depends on the parameters alone. -/
theorem memRead_parameterRegs {s t : State} (h : t.cfg = s.cfg) :
    ∀ a ∈ parameterRegs.map PortReg.offset, memRead t a = memRead s a := by
  refine List.forall_mem_map.2 fun r hr => ?_
  have hread : r.read t = r.read s := by
    simp only [parameterRegs, List.mem_cons, List.not_mem_nil, or_false] at hr
    rcases hr with rfl | rfl | rfl | rfl | rfl <;> simp only [PortReg.read, h]
  rw [memRead_offset, memRead_offset, hread]

/-- R56, R14: the parameters of an admitted configuration show whole in MODES. -/
theorem modesWord_of_admitted {c : Config} (hc : c.admitted = true) :
    modesWord c = BitVec.ofNat 32 (c.modeReset * 2 ^ 16 + c.modes) := by
  obtain ⟨-, hmodes, -, -, -, hreset, -, -⟩ := (Config.admitted_iff c).1 hc
  refine word_eq_ofNat ?_
  rw [modesWord_toNat]
  omega

/-- Settles O31: each layout as a sum of fields, and R202 for its constancy. -/
theorem parameterRegisters : Obligations.ParameterRegisters := by
  refine ⟨fun s hadm => ⟨memRead_offset .settleWindow s, memRead_offset .pulseDuration s, ?_,
    memRead_offset .clockRes s, ?_⟩, fun s t i ht => memRead_parameterRegs (exec_cfg ht)⟩
  · exact (memRead_offset .modes s).trans (congrArg (·, Resp.ok) (modesWord_of_admitted hadm))
  · refine (memRead_offset .edgeCfg s).trans (congrArg (·, Resp.ok) (word_eq_ofNat ?_))
    refine (edgeCfgWord_toNat s.cfg).trans ?_
    congr 1
    · cases s.cfg.irqCoalesce <;> rfl
    · cases s.cfg.edgeSel <;> rfl

/-! ## The MODE_TABLE window (R57) -/

/-- R57: the word at `0x400 + 4·i` is entry `i` of the window. -/
theorem memRead_modeTable (s : State) {i : Nat} (hi : i < 256) :
    memRead s (BitVec.ofNat 11 (0x400 + 4 * i)) = (modeTableWord s.cfg i, .ok) := by
  have h := memRead_offset (.modeTable (BitVec.ofNat 8 i)) s
  rwa [PortReg.offset, PortReg.read, BitVec.toNat_ofNat, Nat.mod_eq_of_lt hi] at h

/-- R57, R95: an entry of an admitted configuration's table reads as its packed spec. -/
theorem modeTableWord_of_entry {c : Config} (hc : c.admitted = true) {i : Nat} {spec : WaveformSpec}
    (h : c.modeTable[i]? = some spec) : modeTableWord c i = spec.pack := by
  obtain ⟨-, -, -, -, -, -, hlen, -⟩ := (Config.admitted_iff c).1 hc
  obtain ⟨hlt, -⟩ := List.getElem?_eq_some_iff.1 h
  have hspec : c.specOf i = spec := by simp only [Config.specOf, h]
  rw [modeTableWord, if_pos (hlen ▸ hlt), hspec]

/-- R57: past the table the window reads 0. -/
theorem modeTableWord_of_le {c : Config} {i : Nat} (h : c.modes ≤ i) : modeTableWord c i = 0 :=
  if_neg (Nat.not_lt.2 h)

/-- Settles O32: the window's word at index `i`, in the table and past it. -/
theorem modeTableWindow : Obligations.ModeTableWindow := by
  intro s i hi hadm
  rw [memRead_modeTable s hi]
  exact ⟨fun p hp => congrArg (·, Resp.ok) (modeTableWord_of_entry hadm hp),
    fun hdis => congrArg (·, Resp.ok) (modeTableWord_of_entry hadm hdis),
    fun hpast => congrArg (·, Resp.ok) (modeTableWord_of_le hpast)⟩

/-! ## Reserved offsets and reserved bits (R58) -/

/-- R58: between the last named register and the window there is none. -/
theorem PortReg.ofOffset_reserved {a : BitVec 11} (hlo : 0x048 ≤ a.toNat) (hhi : a.toNat ≤ 0x3FC) :
    ofOffset a = none := by
  rw [ofOffset, if_neg (by omega)]
  split
  case h_19 => rfl
  all_goals omega

theorem memRead_reserved {a : BitVec 11} (s : State) (ha : a.toNat % 4 = 0) (hlo : 0x048 ≤ a.toNat)
    (hhi : a.toNat ≤ 0x3FC) : memRead s a = (0, .ok) := by
  rw [memRead_aligned ha, portReg, PortReg.ofOffset_reserved hlo hhi]

theorem memRead_past_table {a : BitVec 11} (s : State) (ha : a.toNat % 4 = 0)
    (hpast : 0x400 + 4 * s.cfg.modes ≤ a.toNat) : memRead s a = (0, .ok) := by
  have hlt := a.isLt
  have haddr : a = BitVec.ofNat 11 (0x400 + 4 * ((a.toNat - 0x400) / 4)) := by
    apply BitVec.eq_of_toNat_eq
    rw [BitVec.toNat_ofNat]
    omega
  rw [haddr, memRead_modeTable s (by omega), modeTableWord_of_le (by omega)]

/-- R58: bits 15:12 and 31:24 of STATUS are 0. -/
theorem statusWord_reserved (s : State) :
    (statusWord s).toNat / 2 ^ 12 % 16 = 0 ∧ (statusWord s).toNat / 2 ^ 24 = 0 := by
  have hmode := s.mode.isLt
  have htask := s.task.code.isLt
  have hout := s.lastOutcome.code.isLt
  have hctl := Bool.toNat_lt s.ctlValid
  have hdeb := Bool.toNat_lt s.debValid
  have hpin := Bool.toNat_lt s.inLevel
  have herr := Bool.toNat_lt s.reconfErr
  have hen := Bool.toNat_lt s.wgEn
  have hbuz := Bool.toNat_lt s.buz
  have hled := Bool.toNat_lt s.led
  rw [statusWord_toNat]
  omega

/-- R58: bits 31:24 of MODES are 0. -/
theorem modesWord_reserved (c : Config) : (modesWord c).toNat / 2 ^ 24 = 0 := by
  rw [modesWord_toNat]
  omega

/-- R58: bits 7:3 and 31:16 of EDGE_CFG are 0. -/
theorem edgeCfgWord_reserved (c : Config) :
    (edgeCfgWord c).toNat / 2 ^ 3 % 32 = 0 ∧ (edgeCfgWord c).toNat / 2 ^ 16 = 0 := by
  have hpin := c.pinId.isLt
  have hirq := Bool.toNat_lt c.irqCoalesce
  have hsel := c.edgeSel.code.isLt
  rw [edgeCfgWord_toNat]
  omega

/-- Settles O33: the two reserved ranges, and the reserved bits by the sums of the fields. -/
theorem reservedOffsetsReadZero : Obligations.ReservedOffsetsReadZero := by
  refine ⟨fun s a ha => ⟨memRead_reserved s ha, memRead_past_table s ha⟩, fun s => ?_⟩
  obtain ⟨hstatus, hstatusTop⟩ := statusWord_reserved s
  obtain ⟨hedge, hedgeTop⟩ := edgeCfgWord_reserved s.cfg
  exact ⟨_, _, _, memRead_offset .status s, hstatus, hstatusTop, memRead_offset .modes s, modesWord_reserved s.cfg,
    memRead_offset .edgeCfg s, hedge, hedgeTop⟩

end Sys2Proof.Machine
end

section
/-! Words in the byte stream (R74), and reads of the port, which leave every register as it was (R73). -/

namespace Sys2Proof

/-! ## Words in the byte stream (R74) -/

/-- R68, R74: four bytes that make up the number of a word, least significant first, hold that word. -/
theorem bytesWord_eq_of_toNat {b0 b1 b2 b3 : Byte} {w : Word}
    (h : w.toNat = b0.toNat + 2 ^ 8 * b1.toNat + 2 ^ 16 * b2.toNat + 2 ^ 24 * b3.toNat) :
    bytesWord b0 b1 b2 b3 = w :=
  BitVec.eq_of_toNat_eq ((bytesWord_toNat b0 b1 b2 b3).trans h.symm)

theorem fetchWord_of_operation {b0 b1 b2 b3 : Byte} {i : Instr}
    (h : decode (bytesWord b0 b1 b2 b3) = .operation i) (rest : List Byte) :
    fetchWord (b0 :: b1 :: b2 :: b3 :: rest) = .operation i rest := by
  simp only [fetchWord, h]

theorem fetchWord_of_invalidWord {b0 b1 b2 b3 : Byte} (h : decode (bytesWord b0 b1 b2 b3) = .invalidWord)
    (rest : List Byte) : fetchWord (b0 :: b1 :: b2 :: b3 :: rest) = .invalidWord [b0, b1, b2, b3] := by
  simp only [fetchWord, h]

/-- R74: one to three last bytes are no word. -/
theorem fetchWord_partial {bytes : List Byte} (hne : bytes ≠ []) (hlt : bytes.length < 4) :
    fetchWord bytes = .invalidWord bytes := by
  match bytes, hne, hlt with
  | [_], _, _ | [_, _], _, _ | [_, _, _], _, _ => rfl

/-- Settles O7: the word the four bytes hold is the one they number, and the two cases of its decoding. -/
theorem wordsAreLittleEndian : Obligations.WordsAreLittleEndian := by
  refine ⟨fun b0 b1 b2 b3 rest w hw => ?_, fun _ => fetchWord_partial⟩
  obtain rfl := bytesWord_eq_of_toNat hw
  exact ⟨fun i hi => fetchWord_of_operation hi rest, fun hinv => fetchWord_of_invalidWord hinv rest⟩

/-! ## Reads of the port (R73) -/

namespace Machine

/-- R47 to R57: no register shows the history. -/
@[simp] theorem PortReg.read_record (r : PortReg) (s : State) (h : Record) : r.read (s.record h) = r.read s := by
  cases r <;> rfl

@[simp] theorem portReg_record (s : State) (h : Record) (a : BitVec 11) : portReg (s.record h) a = portReg s a := by
  unfold portReg
  cases PortReg.ofOffset a with
  | none => rfl
  | some r => exact r.read_record s h

/-- R73: a record, which is all a port access adds, changes no answer of the port. -/
@[simp] theorem memRead_record (s : State) (h : Record) (a : BitVec 11) : memRead (s.record h) a = memRead s a := by
  simp only [memRead, portReg_record]

/-- R204: BUS_RD adds its Read record and does nothing else. -/
theorem exec_busRd (a : BitVec 11) (s : State) :
    exec (.busRd a) s = .next (s.record (.read a (memRead s a).1 (memRead s a).2)) := rfl

/-- Settles O34: BUS_RD only adds its Read record, so the second one finds the same register. -/
theorem portReadsAreIdempotent : Obligations.PortReadsAreIdempotent := by
  intro s t a ht
  obtain rfl := execBusRd_next ht
  refine ⟨memRead_record s _, ?_⟩
  rw [exec_busRd, memRead_record]
  rfl

end Machine
end Sys2Proof
end

section
/-! The words that are no operation (R106), and the port words whose offset is misaligned (R66, R67). -/

namespace Sys2Proof

/-! ## Which words are INVALID_WORD (R105, R106) -/

theorem constrained_formatZ_eq_invalidWord {imm : BitVec 24} {i : Instr} :
    constrained (formatZ imm) i = .invalidWord ↔ imm.toNat ≠ 0 := by
  rw [constrained_eq_invalidWord, ← Bool.not_eq_true, formatZ_iff]

theorem constrained_formatBit_eq_invalidWord {imm : BitVec 24} {i : Instr} :
    constrained (formatBit imm) i = .invalidWord ↔ 2 ≤ imm.toNat := by
  rw [constrained_eq_invalidWord, ← Bool.not_eq_true, formatBit_iff, Nat.not_lt]

theorem constrained_formatD_eq_invalidWord {imm : BitVec 24} {i : Instr} :
    constrained (formatD imm) i = .invalidWord ↔ imm.toNat = 0 := by
  rw [constrained_eq_invalidWord, ← Bool.not_eq_true, formatD_iff, not_not]

theorem constrained_formatA_eq_invalidWord {imm : BitVec 24} {i : Instr} :
    constrained (formatA imm) i = .invalidWord ↔ 2 ^ 11 ≤ imm.toNat := by
  rw [constrained_eq_invalidWord, ← Bool.not_eq_true, formatA_iff, Nat.not_lt]

/-- R106's list, on the three fields of a word as numbers. -/
def ReservedFields (ag op imm : Nat) : Prop :=
  4 ≤ ag ∨ (ag = 0 ∧ 5 ≤ op) ∨ (ag = 1 ∧ 1 ≤ op) ∨ (ag = 2 ∧ 5 ≤ op) ∨ (ag = 3 ∧ 1 ≤ op) ∨
    (ag = 0 ∧ op = 0 ∧ 2 ≤ imm) ∨ (ag = 0 ∧ op = 1 ∧ imm = 0) ∨ (ag = 0 ∧ op = 2 ∧ imm ≠ 0) ∨
    (ag = 0 ∧ (op = 3 ∨ op = 4) ∧ 0x800 ≤ imm) ∨ (ag = 1 ∧ op = 0 ∧ imm ≠ 0) ∨
    (ag = 2 ∧ op ≤ 3 ∧ imm ≠ 0) ∨ (ag = 2 ∧ op = 4 ∧ 2 ≤ imm) ∨ (ag = 3 ∧ op = 0 ∧ imm ≠ 0)

theorem five_le_of_ne {n : Nat} (h0 : n ≠ 0) (h1 : n ≠ 1) (h2 : n ≠ 2) (h3 : n ≠ 3) (h4 : n ≠ 4) : 5 ≤ n := by
  omega

/-- R106: an operation code past its agent's last one is reserved, and so is every code of an agent past the last. -/
theorem reservedFields_of_no_row {ag op imm : Nat} (henv : ag = 0 → 5 ≤ op) (hisr : ag = 1 → 1 ≤ op)
    (htask : ag = 2 → 5 ≤ op) (htmr : ag = 3 → 1 ≤ op) : ReservedFields ag op imm := by
  have hag : 4 ≤ ag ∨ ag = 0 ∨ ag = 1 ∨ ag = 2 ∨ ag = 3 := by omega
  unfold ReservedFields
  rcases hag with h | h | h | h | h
  · exact .inl h
  · exact .inr (.inl ⟨h, henv h⟩)
  · exact .inr (.inr (.inl ⟨h, hisr h⟩))
  · exact .inr (.inr (.inr (.inl ⟨h, htask h⟩)))
  · exact .inr (.inr (.inr (.inr (.inl ⟨h, htmr h⟩))))

/-- R105, R106: in a row of the opcode map the format's constraint decides; outside the map there is only INVALID_WORD. -/
theorem decode_eq_invalidWord_iff (w : Word) :
    decode w = .invalidWord ↔ ReservedFields (agField w).toNat (opField w).toNat (immField w).toNat := by
  unfold decode
  split
  case h_1 hag hop | h_11 hag hop =>
    simp [ReservedFields, constrained_formatBit_eq_invalidWord, hag, hop]
  case h_2 hag hop =>
    simp [ReservedFields, constrained_formatD_eq_invalidWord, hag, hop]
  case h_4 hag hop | h_5 hag hop =>
    simp [ReservedFields, constrained_formatA_eq_invalidWord, hag, hop]
  case h_3 hag hop | h_6 hag hop | h_7 hag hop | h_8 hag hop | h_9 hag hop | h_10 hag hop | h_12 hag hop =>
    simp [ReservedFields, constrained_formatZ_eq_invalidWord, hag, hop]
  case h_13 e0 e1 e2 e3 e4 i0 t0 t1 t2 t3 t4 m0 =>
    have henv (h : (agField w).toNat = 0) : 5 ≤ (opField w).toNat :=
      five_le_of_ne (e0 h) (e1 h) (e2 h) (e3 h) (e4 h)
    have htask (h : (agField w).toNat = 2) : 5 ≤ (opField w).toNat :=
      five_le_of_ne (t0 h) (t1 h) (t2 h) (t3 h) (t4 h)
    have hisr (h : (agField w).toNat = 1) : 1 ≤ (opField w).toNat := Nat.one_le_iff_ne_zero.2 (i0 h)
    have htmr (h : (agField w).toNat = 3) : 1 ≤ (opField w).toNat := Nat.one_le_iff_ne_zero.2 (m0 h)
    exact iff_of_true rfl (reservedFields_of_no_row henv hisr htask htmr)

/-! ## Port words (R101) -/

theorem formatA_setWidth (o : BitVec 11) : formatA (o.setWidth 24) = true := by
  rw [formatA_iff, BitVec.toNat_setWidth]
  omega

theorem offsetOperand_setWidth (o : BitVec 11) : offsetOperand (o.setWidth 24) = o := by
  apply BitVec.eq_of_toNat_eq
  rw [offsetOperand_toNat, BitVec.toNat_setWidth]
  omega

/-- R101, R104: the word of a BUS_RD is its offset under the codes of its row. -/
theorem encode_busRd_toNat (o : BitVec 11) : (encode (.busRd o)).toNat = 0x03000000 + o.toNat := by
  have hag : (Instr.busRd o).agent.code.toNat = 0 := rfl
  have hop : (Instr.busRd o).op.toNat = 3 := rfl
  rw [encode_toNat, hag, hop, Instr.imm, BitVec.toNat_setWidth_of_le (by decide)]
  omega

/-- R101, R104: the word of a BUS_WR is its offset under the codes of its row. -/
theorem encode_busWr_toNat (o : BitVec 11) : (encode (.busWr o)).toNat = 0x04000000 + o.toNat := by
  have hag : (Instr.busWr o).agent.code.toNat = 0 := rfl
  have hop : (Instr.busWr o).op.toNat = 4 := rfl
  rw [encode_toNat, hag, hop, Instr.imm, BitVec.toNat_setWidth_of_le (by decide)]
  omega

/-- R105: the encoding of a BUS_RD decodes to it at every offset, aligned or not. -/
theorem decode_encode_busRd (o : BitVec 11) : decode (encode (.busRd o)) = .operation (.busRd o) := by
  obtain ⟨hag, hop, himm⟩ := Laws.wordFields_of_encode (.busRd o)
  simp only [decode, hag, hop, himm]
  exact constrained_eq_operation.2 ⟨formatA_setWidth o, congrArg Instr.busRd (offsetOperand_setWidth o)⟩

/-- R105: the encoding of a BUS_WR decodes to it at every offset, aligned or not. -/
theorem decode_encode_busWr (o : BitVec 11) : decode (encode (.busWr o)) = .operation (.busWr o) := by
  obtain ⟨hag, hop, himm⟩ := Laws.wordFields_of_encode (.busWr o)
  simp only [decode, hag, hop, himm]
  exact constrained_eq_operation.2 ⟨formatA_setWidth o, congrArg Instr.busWr (offsetOperand_setWidth o)⟩

/-- Settles O5: R106's list row by row of the decoder, and the port words by their encodings. -/
theorem reservedWordsRejected : Obligations.ReservedWordsRejected := by
  refine ⟨fun w => ?_, fun o ho => ⟨?_, ?_, fun s => Machine.memRead_misaligned ho s⟩⟩
  · have h := decode_eq_invalidWord_iff w
    rwa [agField_toNat, opField_toNat, immField_toNat] at h
  · rw [← Machine.word_eq_ofNat (encode_busRd_toNat o)]
    exact decode_encode_busRd o
  · rw [← Machine.word_eq_ofNat (encode_busWr_toNat o)]
    exact decode_encode_busWr o

end Sys2Proof
end

section
/-! What EDGE_ISR answers in each of its outcomes (R121). -/

namespace Sys2Proof.Machine

/-- R121: EDGE_ISR is enabled by a pending invocation alone. -/
theorem enabled_edgeIsr_iff (s : State) : enabled .edgeIsr s = true ↔ 0 < s.irqPending := by
  simp only [enabled, State.edgePending, decide_eq_true_eq]

/-- R121: with an invocation pending, EDGE_ISR answers its step. -/
theorem exec_edgeIsr_of_pending {s : State} (h : 0 < s.irqPending) : exec .edgeIsr s = .next s.takeEdge :=
  require_true ((enabled_edgeIsr_iff s).2 h) s s.takeEdge

/-- R131: the filter rejects inside the settle window of the last accepted edge, the difference taken modulo 2^64. -/
theorem filterRejects_iff (s : State) (t : Time) :
    s.filterRejects t = true ↔ s.debValid = true ∧ (t - s.debLast).toNat < s.cfg.settleWindowUs.toNat := by
  rw [State.filterRejects, Bool.and_eq_true, decide_eq_true_eq, State.elapsed]

/-- R16, R36: one more than a word, saturated, is the word itself at its maximum and its successor below. -/
theorem sat32_toNat_add_one (w : Word) :
    sat32 (w.toNat + 1) = if w = 0xFFFFFFFF#32 then w else w + 1 := by
  have hw := w.isLt
  apply BitVec.eq_of_toNat_eq
  rw [sat32_toNat]
  split
  case isTrue hmax =>
    subst hmax
    rfl
  case isFalse hmax =>
    have hne : w.toNat ≠ 0xFFFFFFFF := fun h => hmax (BitVec.eq_of_toNat_eq h)
    have hone : (1 : Word).toNat = 1 := rfl
    rw [BitVec.toNat_add, hone]
    omega

/-! ## The three outcomes -/

theorem takeEdge_of_rejects {s : State} (hr : s.filterRejects s.now = true) :
    s.takeEdge = { s with
      irqPending := s.irqPending - 1, lastOutcome := .rejected
      hist := s.hist ++ [.edge s.sampleEdge .rejected] } :=
  ((takeEdge_cases s).resolve_right (by simp [hr])).2

theorem takeEdge_of_room {s : State} (hr : s.filterRejects s.now = false) (hroom : s.fifo.length < s.cfg.capacity) :
    s.takeEdge = { s with
      irqPending := s.irqPending - 1, debValid := true, debLast := s.now
      fifo := s.fifo ++ [s.sampleEdge.toAccepted], lastOutcome := .accepted
      hist := s.hist ++ [.edge s.sampleEdge .accepted] } :=
  (((takeEdge_cases s).resolve_left (by simp [hr])).resolve_right (by simp [hroom])).2.2

theorem takeEdge_of_full {s : State} (hr : s.filterRejects s.now = false) (hfull : s.cfg.capacity ≤ s.fifo.length) :
    s.takeEdge = { s with
      irqPending := s.irqPending - 1, debValid := true, debLast := s.now
      dropCount := if s.dropCount = 0xFFFFFFFF#32 then s.dropCount else s.dropCount + 1, lastOutcome := .dropped
      hist := s.hist ++ [.edge s.sampleEdge .dropped] } := by
  rw [← sat32_toNat_add_one]
  exact (((takeEdge_cases s).resolve_left (by simp [hr])).resolve_left (by simp [hfull])).2.2

/-- Settles O17: the settle window is the filter's rejection test, and each outcome is one case of EDGE_ISR's step. -/
theorem edgeIsrSamplesFiltersAndPushes : Obligations.EdgeIsrSamplesFiltersAndPushes := by
  refine ⟨rfl, fun s => ⟨enabled_edgeIsr_iff s, ?_, ?_, ?_⟩⟩
  · intro hpending hwindow
    rw [exec_edgeIsr_of_pending hpending, takeEdge_of_rejects ((filterRejects_iff s s.now).2 hwindow)]
    rfl
  · intro hpending hwindow hroom
    rw [← filterRejects_iff, Bool.not_eq_true] at hwindow
    rw [exec_edgeIsr_of_pending hpending, takeEdge_of_room hwindow hroom]
    rfl
  · intro hpending hwindow hfull
    rw [← filterRejects_iff, Bool.not_eq_true] at hwindow
    rw [exec_edgeIsr_of_pending hpending, takeEdge_of_full hwindow hfull]
    rfl

end Sys2Proof.Machine
end

section
/-! What POP answers where an event waits (R143, R145). -/

namespace Sys2Proof.Machine

theorem State.atTask_iff (s : State) (p : TaskPos) : s.atTask p = true ↔ s.task = p :=
  decide_eq_true_iff

/-- R145: POP is enabled at S_POP with an event waiting. -/
theorem enabled_pop_iff (s : State) : enabled .pop s = true ↔ s.task = .pop ∧ 0 < s.fifo.length := by
  have hwaiting : (!s.fifo.isEmpty) = true ↔ 0 < s.fifo.length := by
    rw [Bool.not_eq_true', List.isEmpty_eq_false_iff, List.length_pos_iff]
  rw [enabled, State.popReady, Bool.and_eq_true, decide_eq_true_iff, hwaiting]

/-- R143: on a channel with a head, pop answers it and leaves the rest. -/
theorem pop_of_cons {s : State} {ev : AcceptedEvent} {rest : List AcceptedEvent} (h : s.fifo = ev :: rest) :
    pop s = some (ev, { s with fifo := rest }) := by
  rw [pop, h]

/-- R145: at S_POP, POP gives the controller the oldest event and moves on. -/
theorem exec_pop_of_cons {s : State} {ev : AcceptedEvent} {rest : List AcceptedEvent} (htask : s.task = .pop)
    (hfifo : s.fifo = ev :: rest) :
    exec .pop s = .next { s with
      fifo := rest, ctl := some ev, task := .advance, hist := s.hist ++ [.pop ev] } := by
  rw [exec, execPop, if_pos ((s.atTask_iff .pop).2 htask), pop_of_cons hfifo]
  rfl

/-- Settles O18: the enabling condition, and POP's step on a channel with a head. -/
theorem popTakesTheOldestEvent : Obligations.PopTakesTheOldestEvent :=
  ⟨rfl, fun s => ⟨enabled_pop_iff s, fun _ _ => exec_pop_of_cons⟩⟩

end Sys2Proof.Machine
end

section
/-! What ADVANCE answers at S_ADVANCE (R158). -/

namespace Sys2Proof.Machine

/-- R158: ADVANCE is enabled by the TASK agent's position alone. -/
theorem enabled_advance_iff (s : State) : enabled .advance s = true ↔ s.task = .advance := by
  rw [enabled, s.atTask_iff]

/-- R158: at S_ADVANCE, ADVANCE steps the mode and moves on; it leaves every other field. -/
theorem exec_advance_of_atTask {s : State} (htask : s.task = .advance) :
    exec .advance s = .next { s with mode := nextMode s.cfg s.mode, task := .pulseOn } := by
  rw [exec, execAdvance, require_true ((s.atTask_iff .advance).2 htask)]
  rfl

/-- Settles O19: the enabling condition, and ADVANCE's step, whose next mode is one on modulo N. -/
theorem advanceStepsTheMode : Obligations.AdvanceStepsTheMode :=
  ⟨rfl, fun s => ⟨enabled_advance_iff s, exec_advance_of_atTask⟩⟩

end Sys2Proof.Machine
end

section
/-! The Waveform Generator: what RECONF answers for each spec of the mode (R167, R171), and TICK at the due time (R175). -/

namespace Sys2Proof

/-- R95: the lookup of a mode is its entry in `MODE_TABLE`. -/
theorem Config.specOf_of_getElem? {c : Config} {m : Nat} {spec : WaveformSpec} (h : c.modeTable[m]? = some spec) :
    c.specOf m = spec := by
  rw [specOf, h]

namespace Machine

/-! ## RECONF (R171) -/

/-- R171: RECONF is enabled by the TASK agent's position alone, whatever create will answer. -/
theorem enabled_reconf_iff (fail : Bool) (s : State) : enabled (.reconf fail) s = true ↔ s.task = .reconf := by
  rw [enabled, s.atTask_iff]

/-- R171: at S_RECONF, RECONF reconfigures by the spec of the mode, records it, and gives the position back to POP. -/
theorem exec_reconf_of_specOf {s : State} {spec : WaveformSpec} (fail : Bool) (htask : s.task = .reconf)
    (hspec : s.cfg.specOf s.mode.toNat = spec) :
    exec (.reconf fail) s = .next
      (((reconfigure spec fail s).2.record (.reconf s.mode spec (reconfigure spec fail s).1)).moveTask .pop) := by
  subst hspec
  exact require_true ((s.atTask_iff .reconf).2 htask) s (s.applyMode fail)

/-- R167: a disabled spec leaves the alarm destroyed and the LED low; create is not called, so its answer is not read. -/
theorem exec_reconf_of_disabled {s : State} (fail : Bool) (htask : s.task = .reconf)
    (hspec : s.cfg.specOf s.mode.toNat = .disabled) :
    exec (.reconf fail) s = .next { s with
      wgEn := false, wgPeriod := 0, wgDue := 0, wgPhase := false, led := false, task := .pop
      hist := s.hist ++ [.out .led false s.now, .reconf s.mode .disabled true] } := by
  rw [exec_reconf_of_specOf fail htask hspec, List.append_cons]
  rfl

/-- R167, R170: an enabled spec whose create succeeds starts an alarm that is first due one period from now. -/
theorem exec_reconf_of_created {s : State} {p : Word} (htask : s.task = .reconf)
    (hspec : s.cfg.specOf s.mode.toNat = .enabled p) :
    exec (.reconf false) s = .next { s with
      wgEn := true, wgPeriod := p, wgDue := s.now + periodTime p, wgPhase := false, led := false, task := .pop
      hist := s.hist ++ [.out .led false s.now, .reconf s.mode (.enabled p) true] } := by
  rw [exec_reconf_of_specOf false htask hspec, List.append_cons]
  rfl

/-- R167, R169: an enabled spec whose create fails leaves no alarm and sets the sticky error, which is reported. -/
theorem exec_reconf_of_create_failed {s : State} {p : Word} (htask : s.task = .reconf)
    (hspec : s.cfg.specOf s.mode.toNat = .enabled p) :
    exec (.reconf true) s = .next { s with
      wgEn := false, wgPeriod := 0, wgDue := 0, wgPhase := false, led := false, task := .pop, reconfErr := true
      hist := s.hist ++ [.out .led false s.now, .errReport .reconfFail, .reconf s.mode (.enabled p) false] } := by
  rw [exec_reconf_of_specOf true htask hspec, List.append_cons, List.append_cons]
  rfl

/-- Settles O22: the enabling condition, and RECONF's step by the spec of the mode and the answer to create. -/
theorem reconfAppliesTheMode : Obligations.ReconfAppliesTheMode :=
  ⟨rfl, rfl, fun _ _ _ => Config.specOf_of_getElem?, fun s => ⟨fun fail => enabled_reconf_iff fail s,
    exec_reconf_of_disabled, fun _ => exec_reconf_of_created, fun _ => exec_reconf_of_create_failed⟩⟩

/-! ## TICK (R175) -/

/-- R175, R223: TICK is enabled while the alarm runs and its due time is at most the clock resolution ahead. -/
theorem enabled_tick_iff (s : State) :
    enabled .tick s = true ↔ s.wgEn = true ∧ s.wgDue.toNat ≤ s.now.toNat + s.cfg.clockResUs.toNat := by
  rw [enabled, State.tickDue, Bool.and_eq_true, decide_eq_true_iff]

/-- R175, R177: at the due time, TICK flips the phase, drives the LED with it, and is next due one period on. -/
theorem exec_tick_of_due {s : State} (hen : s.wgEn = true)
    (hdue : s.wgDue.toNat ≤ s.now.toNat + s.cfg.clockResUs.toNat) :
    exec .tick s = .next { s with
      wgPhase := !s.wgPhase, led := !s.wgPhase, wgDue := s.wgDue + periodTime s.wgPeriod
      hist := s.hist ++ [.out .led (!s.wgPhase) s.now] } :=
  require_true ((enabled_tick_iff s).2 ⟨hen, hdue⟩) s s.toggle

/-- Settles O23: the enabling condition, and TICK's step at the due time. -/
theorem tickTogglesTheLed : Obligations.TickTogglesTheLed :=
  ⟨rfl, fun s => ⟨enabled_tick_iff s, exec_tick_of_due⟩⟩

end Machine
end Sys2Proof
end

section
/-! The Pulse Actuator: what PULSE_ON answers at S_PULSE_ON (R186), and PULSE_OFF once the pulse has lasted (R187). -/

namespace Sys2Proof.Machine

/-! ## PULSE_ON (R186) -/

/-- R186: PULSE_ON is enabled by the TASK agent's position alone. -/
theorem enabled_pulseOn_iff (s : State) : enabled .pulseOn s = true ↔ s.task = .pulseOn := by
  rw [enabled, s.atTask_iff]

/-- R186: at S_PULSE_ON, PULSE_ON starts the pulse at the present clock and leaves every other field. -/
theorem exec_pulseOn_of_atTask {s : State} (htask : s.task = .pulseOn) :
    exec .pulseOn s = .next { s with
      buz := true, pulseT0 := s.now, task := .pulseHold, hist := s.hist ++ [.out .buz true s.now] } := by
  rw [exec, execPulseOn, require_true ((s.atTask_iff .pulseOn).2 htask)]
  rfl

/-- Settles O20: the enabling condition, and PULSE_ON's step. -/
theorem pulseOnRaisesTheBuzzer : Obligations.PulseOnRaisesTheBuzzer :=
  ⟨rfl, fun s => ⟨enabled_pulseOn_iff s, exec_pulseOn_of_atTask⟩⟩

/-! ## PULSE_OFF (R187) -/

/-- R187: the pulse has lasted when the clock has moved on by the duration, the difference taken on naturals. -/
theorem State.pulseElapsed_iff (s : State) :
    s.pulseElapsed = true ↔ s.cfg.pulseDurationUs.toNat ≤ s.now.toNat - s.pulseT0.toNat :=
  decide_eq_true_iff

/-- R187: PULSE_OFF is enabled at S_PULSE_HOLD once the pulse has lasted. -/
theorem enabled_pulseOff_iff (s : State) :
    enabled .pulseOff s = true ↔
      s.task = .pulseHold ∧ s.cfg.pulseDurationUs.toNat ≤ s.now.toNat - s.pulseT0.toNat := by
  rw [enabled, State.pulseDone, Bool.and_eq_true, s.atTask_iff, s.pulseElapsed_iff]

/-- R187: PULSE_OFF ends a pulse that has lasted and leaves every other field, the start time with them. -/
theorem exec_pulseOff_of_elapsed {s : State} (htask : s.task = .pulseHold)
    (helapsed : s.cfg.pulseDurationUs.toNat ≤ s.now.toNat - s.pulseT0.toNat) :
    exec .pulseOff s = .next { s with
      buz := false, task := .reconf, hist := s.hist ++ [.out .buz false s.now] } :=
  require_true ((enabled_pulseOff_iff s).2 ⟨htask, helapsed⟩) s ((s.moveTask .reconf).driveBuz false)

/-- Settles O21: the enabling condition, and PULSE_OFF's step once the duration has elapsed. -/
theorem pulseOffLowersTheBuzzer : Obligations.PulseOffLowersTheBuzzer :=
  ⟨rfl, fun s => ⟨enabled_pulseOff_iff s, exec_pulseOff_of_elapsed⟩⟩

end Sys2Proof.Machine
end

section
/-! The environment's stimuli: PIN_SET (R196, R197), CLK_ADV (R199, R200), and the clock along an interleaving (R198). -/

namespace Sys2Proof

/-- R18, R197: which changes of the input level match `EDGE_SEL`. -/
theorem EdgeSel.configures_iff (sel : EdgeSel) (old new : Bool) :
    sel.configures old new = true ↔
      (old = false ∧ new = true ∧ (sel = .rising ∨ sel = .both)) ∨
      (old = true ∧ new = false ∧ (sel = .falling ∨ sel = .both)) := by
  cases sel <;> simp [configures]

/-- R101, R104: the word of a CLK_ADV is its delta under the codes of its row. -/
theorem encode_clkAdv_toNat (d : BitVec 24) : (encode (.clkAdv d)).toNat = 0x01000000 + d.toNat := by
  have hag : (Instr.clkAdv d).agent.code.toNat = 0 := rfl
  have hop : (Instr.clkAdv d).op.toNat = 1 := rfl
  rw [encode_toNat, hag, hop, Instr.imm]
  omega

namespace Machine

/-! ## PIN_SET (R196, R197) -/

theorem setPin_of_configured {s : State} {level : Bool}
    (hedge : s.cfg.edgeSel.configures s.inLevel level = true) :
    s.setPin level = { s with
      inLevel := level, irqPending := if s.cfg.irqCoalesce then 1 else s.irqPending + 1 } :=
  ((setPin_cases s level).resolve_right (by simp [hedge])).2

theorem setPin_of_not_configured {s : State} {level : Bool}
    (hedge : s.cfg.edgeSel.configures s.inLevel level = false) :
    s.setPin level = { s with inLevel := level } :=
  ((setPin_cases s level).resolve_left (by simp [hedge])).2

/-- R195, R197: PIN_SET answers its step in every state. -/
theorem exec_pinSet (level : Bool) (s : State) : exec (.pinSet level) s = .next (s.setPin level) := rfl

/-- Settles O12: the edges of the statement are those `EDGE_SEL` configures, and IRQ_COALESCE decides what one raises. -/
theorem pinSetRaisesConfiguredEdges : Obligations.PinSetRaisesConfiguredEdges := by
  refine ⟨rfl, rfl, fun s level => ⟨rfl, ?_, ?_, ?_⟩⟩ <;>
    rw [← EdgeSel.configures_iff, exec_pinSet]
  · intro hedge hcoalesce
    rw [setPin_of_configured hedge, hcoalesce]
    rfl
  · intro hedge hcoalesce
    rw [setPin_of_configured hedge, hcoalesce]
    rfl
  · intro hedge
    rw [setPin_of_not_configured (Bool.eq_false_iff.2 hedge)]

/-! ## CLK_ADV (R199, R200) -/

theorem State.clockAllows_iff (s : State) (delta : BitVec 24) :
    s.clockAllows delta = true ↔ s.now.toNat + delta.toNat ≤ clockLimit :=
  decide_eq_true_iff

/-- R16, R101: the 64-bit sum of CLK_ADV is the sum on naturals, cut to 64 bits. -/
theorem add_deltaTime (t : Time) (delta : BitVec 24) :
    t + deltaTime delta = BitVec.ofNat 64 (t.toNat + delta.toNat) := by
  apply BitVec.eq_of_toNat_eq
  rw [BitVec.toNat_add, deltaTime_toNat, BitVec.toNat_ofNat]

/-- R199: up to the clock limit, CLK_ADV moves the clock on and leaves every other field. -/
theorem exec_clkAdv_of_le {s : State} {delta : BitVec 24} (h : s.now.toNat + delta.toNat ≤ clockLimit) :
    exec (.clkAdv delta) s = .next { s with now := BitVec.ofNat 64 (s.now.toNat + delta.toNat) } := by
  rw [exec, execClkAdv, if_pos ((s.clockAllows_iff delta).2 h), add_deltaTime]

/-- Settles O13: the two sides of the clock limit. -/
theorem clkAdvMovesTheClock : Obligations.ClkAdvMovesTheClock :=
  ⟨encode_clkAdv_toNat, fun _ _ => ⟨rfl, exec_clkAdv_of_le, execClkAdv_refused⟩⟩

/-! ## The clock along an interleaving (R198) -/

@[simp] theorem State.setPin_now (s : State) (level : Bool) : (s.setPin level).now = s.now := by
  rcases setPin_cases s level with ⟨_, e⟩ | ⟨_, e⟩ <;> rw [e]

@[simp] theorem State.takeEdge_now (s : State) : s.takeEdge.now = s.now := by
  rcases takeEdge_cases s with ⟨_, e⟩ | ⟨_, _, e⟩ | ⟨_, _, e⟩ <;> rw [e]

@[simp] theorem State.applyMode_now (s : State) (fail : Bool) : (s.applyMode fail).now = s.now := by
  rcases applyMode_cases s fail with ⟨_, e⟩ | ⟨_, _, _, e⟩ | ⟨_, _, _, e⟩ <;> rw [e]

/-- R198: every operation but CLK_ADV leaves the clock as it was. -/
theorem exec_now_of_ne_clkAdv {i : Instr} {s t : State} (hi : ∀ delta, i ≠ .clkAdv delta)
    (h : exec i s = .next t) : t.now = s.now := by
  cases i with
  | pinSet level =>
    obtain rfl := execPinSet_next h
    exact s.setPin_now level
  | clkAdv delta => exact absurd rfl (hi delta)
  | reset =>
    obtain rfl := execReset_next h
    rfl
  | busRd offset =>
    obtain rfl := execBusRd_next h
    rfl
  | busWr offset =>
    obtain rfl := execBusWr_next h
    rfl
  | edgeIsr =>
    rcases execEdgeIsr_next h with ⟨_, rfl⟩ | ⟨_, rfl⟩
    · exact s.takeEdge_now
    · rfl
  | pop => rcases execPop_next h with ⟨_, _, _, _, rfl⟩ | ⟨_, rfl⟩ <;> rfl
  | advance => rcases execAdvance_next h with ⟨_, rfl⟩ | ⟨_, rfl⟩ <;> rfl
  | pulseOn => rcases execPulseOn_next h with ⟨_, rfl⟩ | ⟨_, rfl⟩ <;> rfl
  | pulseOff => rcases execPulseOff_next h with ⟨_, _, rfl⟩ | ⟨_, rfl⟩ <;> rfl
  | reconf fail =>
    rcases execReconf_next h with ⟨_, rfl⟩ | ⟨_, rfl⟩
    · exact s.applyMode_now fail
    · rfl
  | tick => rcases execTick_next h with ⟨_, _, rfl⟩ | ⟨_, rfl⟩ <;> rfl

/-- R199, R200: CLK_ADV adds its delta to the clock with no wrap, since it is refused above the limit. -/
theorem exec_clkAdv_now_toNat {delta : BitVec 24} {s t : State} (h : exec (.clkAdv delta) s = .next t) :
    t.now.toNat = s.now.toNat + delta.toNat := by
  obtain ⟨hlimit, rfl⟩ := execClkAdv_next h
  have hwrap : s.now.toNat + (deltaTime delta).toNat < 2 ^ 64 := by
    rw [deltaTime_toNat]
    exact hlimit.trans_lt (by decide)
  rw [time_add_toNat hwrap, deltaTime_toNat]

theorem clockAdvance_cons_of_ne_clkAdv {i : Instr} (hi : ∀ delta, i ≠ .clkAdv delta) (is : List Instr) :
    clockAdvance (i :: is) = clockAdvance is := by
  cases i with
  | clkAdv delta => exact absurd rfl (hi delta)
  | _ => rfl

/-- R198: along an interleaving the clock moves by the deltas of its CLK_ADV operations, and by nothing else. -/
theorem path_now_toNat {is : List Instr} {s t : State} (h : Path s is t) :
    t.now.toNat = s.now.toNat + clockAdvance is := by
  induction h with
  | nil => rfl
  | @cons i is s t u htakes _ ih =>
    obtain ⟨-, -, hexec⟩ := htakes
    by_cases hi : ∃ delta, i = .clkAdv delta
    · obtain ⟨delta, rfl⟩ := hi
      rw [ih, exec_clkAdv_now_toNat hexec, clockAdvance, Nat.add_assoc]
    · rw [not_exists] at hi
      rw [ih, exec_now_of_ne_clkAdv hi hexec, clockAdvance_cons_of_ne_clkAdv hi]

/-- Settles O46: the sum along the interleaving; CLK_ADV's own limit makes it exact, from any start. -/
theorem onlyClkAdvMovesTheClock : Obligations.OnlyClkAdvMovesTheClock :=
  fun _ _ _ _ => path_now_toNat

end Machine
end Sys2Proof
end

section
/-! The host's accesses to the status port: what BUS_RD (R67, R204) and BUS_WR (R69, R205) answer. -/

namespace Sys2Proof.Machine

theorem exec_busRd_aligned {a : BitVec 11} (h : a.toNat % 4 = 0) (s : State) :
    exec (.busRd a) s = .next (s.record (.read a (portReg s a) .ok)) := by
  rw [exec_busRd, memRead_aligned h]

theorem exec_busRd_misaligned {a : BitVec 11} (h : a.toNat % 4 ≠ 0) (s : State) :
    exec (.busRd a) s = .next (s.record (.read a 0 .err)) := by
  rw [exec_busRd, memRead_misaligned h]

/-- Settles O15: the port's answer at an aligned and at a misaligned offset, and the record that carries it. -/
theorem busRdAnswersTheRegister : Obligations.BusRdAnswersTheRegister :=
  ⟨encode_busRd_toNat, fun s _ => ⟨rfl, fun h => ⟨memRead_aligned h s, exec_busRd_aligned h s⟩,
    fun h => ⟨memRead_misaligned h s, exec_busRd_misaligned h s⟩⟩⟩

/-- R69, R205: BUS_WR adds its ERR record and does nothing else, whatever its offset. -/
theorem exec_busWr (a : BitVec 11) (s : State) :
    exec (.busWr a) s = .next (s.record (.read a 0 .err)) := rfl

/-- Settles O16: the record with ERR is BUS_WR's whole step. -/
theorem busWrAnswersErr : Obligations.BusWrAnswersErr :=
  ⟨encode_busWr_toNat, fun s a => ⟨rfl, exec_busWr a s⟩⟩

end Sys2Proof.Machine
end

section
/-! The decoder and the encoder are inverse to each other (R105), which words decode to which operation (R101), and the
opcode map (R102). -/

namespace Sys2Proof

/-! ## Operands in their fields (R100, R101) -/

theorem ofBool_setWidth_toNat (b : Bool) : ((BitVec.ofBool b).setWidth 24).toNat = b.toNat := by
  cases b <;> rfl

theorem formatBit_ofBool (b : Bool) : formatBit ((BitVec.ofBool b).setWidth 24) = true := by
  cases b <;> rfl

theorem bitOperand_ofBool (b : Bool) : bitOperand ((BitVec.ofBool b).setWidth 24) = b := by
  cases b <;> rfl

/-- R101: a format Z field is the one its operation is encoded with. -/
theorem imm_eq_of_formatZ {imm : BitVec 24} (h : formatZ imm = true) : 0 = imm :=
  (beq_iff_eq.1 h).symm

/-- R101: a one-bit field is the one its operand is encoded in. -/
theorem imm_eq_of_formatBit {imm : BitVec 24} (h : formatBit imm = true) :
    (BitVec.ofBool (bitOperand imm)).setWidth 24 = imm := by
  have hlt : imm.toNat < 2 := (formatBit_iff imm).1 h
  apply BitVec.eq_of_toNat_eq
  rw [ofBool_setWidth_toNat, bitOperand_eq imm hlt]
  have hbit : imm.toNat = 0 ∨ imm.toNat = 1 := by omega
  rcases hbit with e | e <;> simp [e]

/-- R101: an offset field is the one its operand is encoded in. -/
theorem imm_eq_of_formatA {imm : BitVec 24} (h : formatA imm = true) :
    (offsetOperand imm).setWidth 24 = imm := by
  have hlt : imm.toNat < 2 ^ 11 := (formatA_iff imm).1 h
  apply BitVec.eq_of_toNat_eq
  rw [BitVec.toNat_setWidth, offsetOperand_toNat]
  omega

/-! ## Decoding an encoding (R105) -/

/-- R105: the decoder reads back every operation that has an encoding. -/
theorem decode_encode {i : Instr} (hwf : i.wellFormed = true) : decode (encode i) = .operation i := by
  obtain ⟨hag, hop, himm⟩ := Laws.wordFields_of_encode i
  simp only [decode, hag, hop, himm]
  cases i with
  | pinSet bit | reconf bit =>
    exact constrained_eq_operation.2 ⟨formatBit_ofBool bit, congrArg _ (bitOperand_ofBool bit)⟩
  | clkAdv delta => exact constrained_eq_operation.2 ⟨hwf, rfl⟩
  | busRd offset | busWr offset =>
    exact constrained_eq_operation.2 ⟨formatA_setWidth offset, congrArg _ (offsetOperand_setWidth offset)⟩
  | reset | edgeIsr | pop | advance | pulseOn | pulseOff | tick => rfl

/-- Settles O2: the three fields of the encoding select the operation's row, and its operand meets the row's format. -/
theorem decodeOfEncode : Obligations.DecodeOfEncode :=
  fun _ => decode_encode

/-! ## Encoding what was decoded (R105) -/

/-- R98: a word is the encoding of the operation whose three fields it has. -/
theorem encode_eq_of_fields {i : Instr} {w : Word} (hag : (agField w).toNat = i.agent.code.toNat)
    (hop : (opField w).toNat = i.op.toNat) (himm : i.imm = immField w) : encode i = w := by
  have hw := w.isLt
  rw [agField_toNat] at hag
  rw [opField_toNat] at hop
  apply BitVec.eq_of_toNat_eq
  rw [encode_toNat, himm, immField_toNat, ← hag, ← hop]
  omega

/-- R105: a word the decoder reads is the encoding of the operation read. -/
theorem wellFormed_and_encode_of_decode {w : Word} {i : Instr} (h : decode w = .operation i) :
    i.wellFormed = true ∧ encode i = w := by
  unfold decode at h
  split at h
  case h_1 hag hop | h_11 hag hop =>
    obtain ⟨hfmt, rfl⟩ := constrained_eq_operation.1 h
    exact ⟨rfl, encode_eq_of_fields hag hop (imm_eq_of_formatBit hfmt)⟩
  case h_2 hag hop =>
    obtain ⟨hfmt, rfl⟩ := constrained_eq_operation.1 h
    exact ⟨hfmt, encode_eq_of_fields hag hop rfl⟩
  case h_4 hag hop | h_5 hag hop =>
    obtain ⟨hfmt, rfl⟩ := constrained_eq_operation.1 h
    exact ⟨rfl, encode_eq_of_fields hag hop (imm_eq_of_formatA hfmt)⟩
  case h_3 hag hop | h_6 hag hop | h_7 hag hop | h_8 hag hop | h_9 hag hop | h_10 hag hop | h_12 hag hop =>
    obtain ⟨hfmt, rfl⟩ := constrained_eq_operation.1 h
    exact ⟨rfl, encode_eq_of_fields hag hop (imm_eq_of_formatZ hfmt)⟩
  case h_13 => exact absurd h (by simp)

/-- Settles O3: row by row of the decoder, the word's fields are those of the operation read. -/
theorem encodeOfDecode : Obligations.EncodeOfDecode :=
  fun _ _ => wellFormed_and_encode_of_decode

/-! ## Which words decode to which operation (R101) -/

/-- R105, R101: a word decodes to an operation exactly when it holds the number of the operation's encoding. -/
theorem decode_eq_operation_iff (w : Word) (i : Instr) :
    decode w = .operation i ↔ w.toNat = (encode i).toNat ∧ i.wellFormed = true := by
  constructor
  · intro h
    obtain ⟨hwf, rfl⟩ := wellFormed_and_encode_of_decode h
    exact ⟨rfl, hwf⟩
  · rintro ⟨hw, hwf⟩
    rw [BitVec.eq_of_toNat_eq hw, decode_encode hwf]

/-- R101: for an operation that always has an encoding, the encoding's number decides. -/
theorem decode_eq_operation_iff_toNat {w : Word} {i : Instr} {n : Nat} (hwf : i.wellFormed = true)
    (hn : (encode i).toNat = n) : decode w = .operation i ↔ w.toNat = n := by
  rw [decode_eq_operation_iff, hn, and_iff_left hwf]

theorem encode_pinSet_toNat (l : Bool) : (encode (.pinSet l)).toNat = if l then 1 else 0 := by
  cases l <;> rfl

theorem encode_reconf_toNat (f : Bool) : (encode (.reconf f)).toNat = 0x24000000 + if f then 1 else 0 := by
  cases f <;> rfl

theorem clkAdv_wellFormed_iff (d : BitVec 24) : (Instr.clkAdv d).wellFormed = true ↔ 1 ≤ d.toNat :=
  (formatD_iff d).trans Nat.one_le_iff_ne_zero.symm

/-- Settles O4: each operation's encoding as a number. -/
theorem decodeReadsEveryField : Obligations.DecodeReadsEveryField := by
  refine fun w => ⟨fun l => decode_eq_operation_iff_toNat rfl (encode_pinSet_toNat l), fun d => ?_,
    decode_eq_operation_iff_toNat rfl rfl, fun o => decode_eq_operation_iff_toNat rfl (encode_busRd_toNat o),
    fun o => decode_eq_operation_iff_toNat rfl (encode_busWr_toNat o), decode_eq_operation_iff_toNat rfl rfl,
    decode_eq_operation_iff_toNat rfl rfl, decode_eq_operation_iff_toNat rfl rfl, decode_eq_operation_iff_toNat rfl rfl,
    decode_eq_operation_iff_toNat rfl rfl, fun f => decode_eq_operation_iff_toNat rfl (encode_reconf_toNat f),
    decode_eq_operation_iff_toNat rfl rfl⟩
  rw [decode_eq_operation_iff, encode_clkAdv_toNat, clkAdv_wellFormed_iff]

/-- Settles O1: each worked word is a closed evaluation of the encoder, and decodes back by R105's law. -/
theorem workedWordsDecode : Obligations.WorkedWordsDecode := by
  refine ⟨?_, rfl, rfl, rfl, rfl, rfl, rfl, rfl, rfl, rfl⟩
  intro p hp
  have hword : p.1.wellFormed = true ∧ encode p.1 = p.2 := by
    revert p
    decide
  obtain ⟨hwf, henc⟩ := hword
  exact ⟨henc, henc ▸ decode_encode hwf⟩

/-! ## The opcode map (R102) -/

/-- A mask whose ones are the bits from `k` up compares those bits alone. -/
theorem and_highMask_beq_iff (w m : Word) (k : Nat) :
    (w &&& (BitVec.allOnes 32 <<< k) == m) = true ↔ w.toNat - w.toNat % 2 ^ k = m.toNat := by
  have hmask : w &&& (BitVec.allOnes 32 <<< k) = (w >>> k) <<< k := by
    ext j hj
    by_cases hjk : j < k
    · simp [hjk]
    · have hjk' : j - k < 32 := by omega
      have hkj : k + (j - k) = j := by omega
      simp [-BitVec.reduceAllOnes, hj, hjk, hjk', hkj, ← BitVec.getLsbD_eq_getElem]
  have hlt : w.toNat / 2 ^ k * 2 ^ k < 2 ^ 32 := (Nat.div_mul_le_self _ _).trans_lt w.isLt
  rw [beq_iff_eq, ← BitVec.toNat_inj, hmask, BitVec.toNat_shiftLeft, BitVec.toNat_ushiftRight,
    Nat.shiftRight_eq_div_pow, Nat.shiftLeft_eq, Nat.mod_eq_of_lt hlt, Nat.div_mul_self_eq_mod_sub_self]

/-- How many low bits of the word a row's mask leaves to the operand. -/
def Format.operandBits : Format → Nat
  | .Z => 0
  | .P => 1
  | .D => 24
  | .A => 11
  | .R => 1

theorem Format.operandBits_le (f : Format) : f.operandBits ≤ 24 := by
  cases f <;> decide

theorem opcodeMap_mask : ∀ row ∈ opcodeMap, row.mask = BitVec.allOnes 32 <<< row.format.operandBits := by
  decide

theorem opcodeMap_matchBits :
    ∀ row ∈ opcodeMap, row.matchBits.toNat = row.agent.code.toNat * 2 ^ 28 + row.op.toNat * 2 ^ 24 := by
  decide

/-- R100: an operand field its format allows is within the bits the mask leaves. -/
theorem Format.toNat_lt_of_allows {f : Format} {imm : BitVec 24} (h : f.allows imm = true) :
    imm.toNat < 2 ^ f.operandBits := by
  cases f with
  | Z => exact Nat.lt_one_iff.2 ((formatZ_iff imm).1 h)
  | P | R => exact (formatBit_iff imm).1 h
  | D => exact imm.isLt
  | A => exact (formatA_iff imm).1 h

/-- R102: a row selects the words with its agent and operation code whose operand field meets its format. -/
theorem selects_iff {row : OpcodeRow} (hrow : row ∈ opcodeMap) (w : Word) :
    row.selects w = true ↔
      ((agField w).toNat = row.agent.code.toNat ∧ (opField w).toNat = row.op.toNat) ∧
        row.format.allows (immField w) = true := by
  have hag := row.agent.code.isLt
  have hop := row.op.isLt
  have hw := w.isLt
  rw [OpcodeRow.selects, Bool.and_eq_true, opcodeMap_mask row hrow, and_highMask_beq_iff,
    opcodeMap_matchBits row hrow, agField_toNat, opField_toNat]
  refine and_congr_left fun hfmt => ?_
  have himm : w.toNat % 2 ^ row.format.operandBits = w.toNat % 2 ^ 24 := by
    rw [← Nat.mod_mod_of_dvd _ (Nat.pow_dvd_pow 2 row.format.operandBits_le), ← immField_toNat,
      Nat.mod_eq_of_lt (Format.toNat_lt_of_allows hfmt)]
  rw [himm]
  omega

/-- R102: the format of the row an operation stands in. -/
def Instr.format : Instr → Format
  | .pinSet _ => .P
  | .clkAdv _ => .D
  | .reset => .Z
  | .busRd _ => .A
  | .busWr _ => .A
  | .edgeIsr => .Z
  | .pop => .Z
  | .advance => .Z
  | .pulseOn => .Z
  | .pulseOff => .Z
  | .reconf _ => .R
  | .tick => .Z

theorem Instr.allows_imm {i : Instr} (hwf : i.wellFormed = true) : i.format.allows i.imm = true := by
  cases i with
  | pinSet bit | reconf bit => exact formatBit_ofBool bit
  | clkAdv delta => exact hwf
  | busRd offset | busWr offset => exact formatA_setWidth offset
  | reset | edgeIsr | pop | advance | pulseOn | pulseOff | tick => rfl

/-- R102: every operation stands in a row of the map, under its own codes and format. -/
theorem Instr.exists_row (i : Instr) :
    ∃ row ∈ opcodeMap, row.mnemonic = i.mnemonic ∧ row.agent = i.agent ∧ row.op = i.op ∧ row.format = i.format := by
  cases i <;> simp [opcodeMap, Instr.mnemonic, Instr.agent, Instr.op, Instr.format]

/-- R102, R105: the row of the operation a word decodes to selects that word. -/
theorem exists_row_selects_of_decode {w : Word} {i : Instr} (h : decode w = .operation i) :
    ∃ row ∈ opcodeMap, row.mnemonic = i.mnemonic ∧ row.agent = i.agent ∧ row.selects w = true := by
  obtain ⟨hwf, rfl⟩ := wellFormed_and_encode_of_decode h
  obtain ⟨hag, hop, himm⟩ := Laws.wordFields_of_encode i
  obtain ⟨row, hrow, hmn, hagent, hrop, hfmt⟩ := i.exists_row
  refine ⟨row, hrow, hmn, hagent, (selects_iff hrow _).2 ?_⟩
  rw [hag, hop, himm, hagent, hrop, hfmt]
  exact ⟨⟨rfl, rfl⟩, Instr.allows_imm hwf⟩

/-- R102: no two rows of the map have the same mnemonic. -/
theorem opcodeMap_mnemonic_injective :
    ∀ row ∈ opcodeMap, ∀ row' ∈ opcodeMap, row.mnemonic = row'.mnemonic → row = row' := by
  decide

/-- R102, R105: a word that a row selects decodes to that row's operation. -/
theorem decode_of_selects {w : Word} {row : OpcodeRow} (hrow : row ∈ opcodeMap) (h : row.selects w = true) :
    ∃ i, decode w = .operation i ∧ i.mnemonic = row.mnemonic := by
  obtain ⟨⟨hag, hop⟩, hfmt⟩ := (selects_iff hrow w).1 h
  simp only [opcodeMap, List.mem_cons, List.not_mem_nil, or_false] at hrow
  rcases hrow with rfl | rfl | rfl | rfl | rfl | rfl | rfl | rfl | rfl | rfl | rfl | rfl <;>
    simp only [decode, hag, hop] <;>
    exact ⟨_, constrained_eq_operation.2 ⟨hfmt, rfl⟩, rfl⟩

/-- Settles O6: a row selects by fields and format, as the decoder does, and mnemonics name the rows. -/
theorem decoderAgreesWithOpcodeMap : Obligations.DecoderAgreesWithOpcodeMap := by
  refine ⟨rfl, fun w row hrow => ⟨⟨decode_of_selects hrow, ?_⟩, fun hsel => ?_⟩,
    fun _ _ => exists_row_selects_of_decode⟩
  · rintro ⟨i, hdec, hmn⟩
    obtain ⟨row', hrow', hmn', -, hsel⟩ := exists_row_selects_of_decode hdec
    rwa [opcodeMap_mnemonic_injective row hrow row' hrow' (hmn.symm.trans hmn'.symm)]
  · obtain ⟨⟨hag, hop⟩, -⟩ := (selects_iff hrow w).1 hsel
    rw [← hag, ← hop, agField_toNat, opField_toNat]
    exact ⟨rfl, rfl⟩

end Sys2Proof
end

section
/-! What an operation can answer, said once for all twelve: the effect of one that is enabled, nothing for one
that is not, and the refusal of R200. -/

namespace Sys2Proof.Machine

open Host (Outcome)

/-! ## The effect of an enabled operation -/

/-- `Effect s i t`: operation `i` is enabled in `s` and leads to `t`; one constructor per way an operation can go. -/
inductive Effect (s : State) : Instr → State → Prop where
  | pinEdge {level : Bool} (hedge : s.cfg.edgeSel.configures s.inLevel level = true) :
    Effect s (.pinSet level) { s with
      inLevel := level, irqPending := if s.cfg.irqCoalesce then 1 else s.irqPending + 1 }
  | pinQuiet {level : Bool} (hedge : s.cfg.edgeSel.configures s.inLevel level = false) :
    Effect s (.pinSet level) { s with inLevel := level }
  | clkAdv {delta : BitVec 24} (hlimit : s.now.toNat + delta.toNat ≤ clockLimit) :
    Effect s (.clkAdv delta) { s with now := s.now + deltaTime delta }
  | reset : Effect s .reset (s.resetState.record (.reset s.now))
  | busRd {offset : BitVec 11} :
    Effect s (.busRd offset) { s with
      hist := s.hist ++ [.read offset (memRead s offset).1 (memRead s offset).2] }
  | busWr {offset : BitVec 11} : Effect s (.busWr offset) { s with hist := s.hist ++ [.read offset 0 .err] }
  | edgeRejected (hpending : 0 < s.irqPending) (hrej : s.filterRejects s.now = true) :
    Effect s .edgeIsr { s with
      irqPending := s.irqPending - 1, lastOutcome := .rejected
      hist := s.hist ++ [.edge s.sampleEdge .rejected] }
  | edgeAccepted (hpending : 0 < s.irqPending) (hrej : s.filterRejects s.now = false)
      (hroom : s.fifo.length < s.cfg.capacity) :
    Effect s .edgeIsr { s with
      irqPending := s.irqPending - 1, debValid := true, debLast := s.now
      fifo := s.fifo ++ [s.sampleEdge.toAccepted], lastOutcome := .accepted
      hist := s.hist ++ [.edge s.sampleEdge .accepted] }
  | edgeDropped (hpending : 0 < s.irqPending) (hrej : s.filterRejects s.now = false)
      (hfull : s.cfg.capacity ≤ s.fifo.length) :
    Effect s .edgeIsr { s with
      irqPending := s.irqPending - 1, debValid := true, debLast := s.now
      dropCount := sat32 (s.dropCount.toNat + 1), lastOutcome := .dropped
      hist := s.hist ++ [.edge s.sampleEdge .dropped] }
  | pop {ev : AcceptedEvent} {rest : List AcceptedEvent} (htask : s.task = .pop) (hfifo : s.fifo = ev :: rest) :
    Effect s .pop { s with fifo := rest, ctl := some ev, task := .advance, hist := s.hist ++ [.pop ev] }
  | advance (htask : s.task = .advance) :
    Effect s .advance { s with mode := nextMode s.cfg s.mode, task := .pulseOn }
  | pulseOn (htask : s.task = .pulseOn) :
    Effect s .pulseOn { s with
      buz := true, pulseT0 := s.now, task := .pulseHold, hist := s.hist ++ [.out .buz true s.now] }
  | pulseOff (htask : s.task = .pulseHold)
      (helapsed : s.cfg.pulseDurationUs.toNat ≤ s.now.toNat - s.pulseT0.toNat) :
    Effect s .pulseOff { s with buz := false, task := .reconf, hist := s.hist ++ [.out .buz false s.now] }
  | reconfDisabled {fail : Bool} (htask : s.task = .reconf) (hspec : s.cfg.specOf s.mode.toNat = .disabled) :
    Effect s (.reconf fail) { s with
      wgEn := false, wgPeriod := 0, wgDue := 0, wgPhase := false, led := false, task := .pop
      hist := s.hist ++ [.out .led false s.now] ++ [.reconf s.mode .disabled true] }
  | reconfFailed {p : Word} (htask : s.task = .reconf) (hspec : s.cfg.specOf s.mode.toNat = .enabled p) :
    Effect s (.reconf true) { s with
      wgEn := false, wgPeriod := 0, wgDue := 0, wgPhase := false, led := false, task := .pop, reconfErr := true
      hist := s.hist ++ [.out .led false s.now] ++ [.errReport .reconfFail] ++
        [.reconf s.mode (.enabled p) false] }
  | reconfCreated {p : Word} (htask : s.task = .reconf) (hspec : s.cfg.specOf s.mode.toNat = .enabled p) :
    Effect s (.reconf false) { s with
      wgEn := true, wgPeriod := p, wgDue := s.now + periodTime p, wgPhase := false, led := false, task := .pop
      hist := s.hist ++ [.out .led false s.now] ++ [.reconf s.mode (.enabled p) true] }
  | tick (hen : s.wgEn = true) (hdue : s.wgDue.toNat ≤ s.now.toNat + s.cfg.clockResUs.toNat) :
    Effect s .tick { s with
      wgPhase := !s.wgPhase, led := !s.wgPhase, wgDue := s.wgDue + periodTime s.wgPeriod
      hist := s.hist ++ [.out .led (!s.wgPhase) s.now] }

section
variable {i : Instr} {s t : State}

theorem Effect.of_setPin (s : State) (level : Bool) : Effect s (.pinSet level) (s.setPin level) := by
  rcases setPin_cases s level with ⟨hedge, e⟩ | ⟨hedge, e⟩ <;> rw [e]
  · exact .pinEdge hedge
  · exact .pinQuiet hedge

theorem Effect.of_takeEdge (hpending : 0 < s.irqPending) : Effect s .edgeIsr s.takeEdge := by
  rcases takeEdge_cases s with ⟨hrej, e⟩ | ⟨hrej, hroom, e⟩ | ⟨hrej, hfull, e⟩ <;> rw [e]
  · exact .edgeRejected hpending hrej
  · exact .edgeAccepted hpending hrej hroom
  · exact .edgeDropped hpending hrej hfull

theorem Effect.of_applyMode {fail : Bool} (htask : s.task = .reconf) :
    Effect s (.reconf fail) (s.applyMode fail) := by
  rcases applyMode_cases s fail with ⟨hspec, e⟩ | ⟨p, hspec, rfl, e⟩ | ⟨p, hspec, rfl, e⟩ <;> rw [e]
  · exact .reconfDisabled htask hspec
  · exact .reconfFailed htask hspec
  · exact .reconfCreated htask hspec

/-- R17: an enabled operation that answers a next state has one of the effects. -/
theorem Effect.of_exec (hen : enabled i s = true) (h : exec i s = .next t) : Effect s i t := by
  cases i with
  | pinSet level => exact execPinSet_next h ▸ .of_setPin s level
  | clkAdv delta =>
    obtain ⟨hlimit, rfl⟩ := execClkAdv_next h
    exact .clkAdv hlimit
  | reset => exact execReset_next h ▸ .reset
  | busRd offset => exact execBusRd_next h ▸ .busRd
  | busWr offset => exact execBusWr_next h ▸ .busWr
  | edgeIsr =>
    have hpending := (enabled_edgeIsr_iff s).1 hen
    rcases execEdgeIsr_next h with ⟨-, rfl⟩ | ⟨hnone, -⟩
    · exact .of_takeEdge hpending
    · omega
  | pop =>
    obtain ⟨htask, hwait⟩ := (enabled_pop_iff s).1 hen
    rcases execPop_next h with ⟨-, ev, rest, hfifo, rfl⟩ | ⟨hno | hno, -⟩
    · exact .pop htask hfifo
    · exact absurd htask hno
    · simp [hno] at hwait
  | advance =>
    rcases execAdvance_next h with ⟨htask, rfl⟩ | ⟨hno, -⟩
    · exact .advance htask
    · exact absurd ((enabled_advance_iff s).1 hen) hno
  | pulseOn =>
    rcases execPulseOn_next h with ⟨htask, rfl⟩ | ⟨hno, -⟩
    · exact .pulseOn htask
    · exact absurd ((enabled_pulseOn_iff s).1 hen) hno
  | pulseOff =>
    rcases execPulseOff_next h with ⟨htask, helapsed, rfl⟩ | ⟨hno, -⟩
    · exact .pulseOff htask helapsed
    · exact absurd (hno.symm.trans hen) (by decide)
  | reconf fail =>
    rcases execReconf_next h with ⟨htask, rfl⟩ | ⟨hno, -⟩
    · exact .of_applyMode htask
    · exact absurd ((enabled_reconf_iff fail s).1 hen) hno
  | tick =>
    rcases execTick_next h with ⟨hwg, hdue, rfl⟩ | ⟨hno, -⟩
    · exact .tick hwg hdue
    · exact absurd (hno.symm.trans hen) (by decide)

theorem Effect.enabled (h : Effect s i t) : enabled i s = true := by
  cases h with
  | pinEdge | pinQuiet | clkAdv | reset | busRd | busWr => rfl
  | edgeRejected hpending | edgeAccepted hpending | edgeDropped hpending => exact (enabled_edgeIsr_iff s).2 hpending
  | pop htask hfifo => exact (enabled_pop_iff s).2 ⟨htask, by simp [hfifo]⟩
  | advance htask => exact (enabled_advance_iff s).2 htask
  | pulseOn htask => exact (enabled_pulseOn_iff s).2 htask
  | pulseOff htask helapsed => exact (enabled_pulseOff_iff s).2 ⟨htask, helapsed⟩
  | reconfDisabled htask | reconfFailed htask | reconfCreated htask => exact (enabled_reconf_iff _ s).2 htask
  | tick hen hdue => exact (enabled_tick_iff s).2 ⟨hen, hdue⟩

/-- Every effect is what the model answers. -/
theorem Effect.exec_eq (h : Effect s i t) : exec i s = .next t := by
  cases h with
  | pinEdge hedge => exact congrArg Outcome.next (setPin_of_configured hedge)
  | pinQuiet hedge => exact congrArg Outcome.next (setPin_of_not_configured hedge)
  | clkAdv hlimit => rw [exec_clkAdv_of_le hlimit, add_deltaTime]
  | reset | busRd | busWr => rfl
  | edgeRejected hpending hrej => rw [exec_edgeIsr_of_pending hpending, takeEdge_of_rejects hrej]
  | edgeAccepted hpending hrej hroom => rw [exec_edgeIsr_of_pending hpending, takeEdge_of_room hrej hroom]
  | edgeDropped hpending hrej hfull =>
    rw [exec_edgeIsr_of_pending hpending, takeEdge_of_full hrej hfull, sat32_toNat_add_one]
  | pop htask hfifo => exact exec_pop_of_cons htask hfifo
  | advance htask => exact exec_advance_of_atTask htask
  | pulseOn htask => exact exec_pulseOn_of_atTask htask
  | pulseOff htask helapsed => exact exec_pulseOff_of_elapsed htask helapsed
  | reconfDisabled htask hspec =>
    rw [exec_reconf_of_disabled _ htask hspec, List.append_assoc]
    rfl
  | reconfFailed htask hspec =>
    rw [exec_reconf_of_create_failed htask hspec, List.append_assoc, List.append_assoc]
    rfl
  | reconfCreated htask hspec =>
    rw [exec_reconf_of_created htask hspec, List.append_assoc]
    rfl
  | tick hen hdue => exact exec_tick_of_due hen hdue

/-- R17, R24: taking a step is having an encoding and an effect. -/
theorem takes_iff : Takes i s t ↔ i.wellFormed = true ∧ Effect s i t :=
  ⟨fun ⟨hwf, hen, h⟩ => ⟨hwf, .of_exec hen h⟩, fun ⟨hwf, h⟩ => ⟨hwf, h.enabled, h.exec_eq⟩⟩

theorem Takes.effect (h : Takes i s t) : Effect s i t := (takes_iff.1 h).2

/-! ## Every answer of an operation (R17, R19, R215) -/

/-- R19 (b): an operation that is not enabled answers the state it was given. -/
theorem exec_of_not_enabled (h : enabled i s = false) : exec i s = .next s := by
  cases i with
  | pinSet | clkAdv | reset | busRd | busWr => exact absurd h (by simp [Machine.enabled])
  | edgeIsr | advance | pulseOn | pulseOff | reconf | tick => exact require_false h _ _
  | pop =>
    rcases pop_cases s with ⟨-, hpop⟩ | ⟨ev, rest, hfifo, -⟩
    · cases hat : s.atTask .pop <;> simp [exec, execPop, hpop, hat, hold]
    · have hat : s.atTask .pop = false := by simpa [Machine.enabled, State.popReady, State.atTask, hfifo] using h
      simp [exec, execPop, hat, hold]

/-- What an operation that answers a next state did: its effect where it is enabled, nothing where it is not. -/
theorem exec_next (h : exec i s = .next t) : Effect s i t ∨ (enabled i s = false ∧ t = s) := by
  cases hen : enabled i s with
  | true => exact .inl (.of_exec hen h)
  | false => exact .inr ⟨rfl, by simpa [exec_of_not_enabled hen] using h.symm⟩

/-- R200, R215: an operation answers a next state, unless it is CLK_ADV above the clock limit, which is refused. -/
theorem exec_outcome (i : Instr) (s : State) :
    (∃ t, exec i s = .next t) ∨
    ∃ delta, i = .clkAdv delta ∧ clockLimit < s.now.toNat + delta.toNat ∧
      exec i s = .refused (.clockOverflow s.now delta) := by
  by_cases hclk : ∃ delta, i = .clkAdv delta
  · obtain ⟨delta, rfl⟩ := hclk
    rcases Nat.lt_or_ge clockLimit (s.now.toNat + delta.toNat) with hover | hlimit
    · exact .inr ⟨delta, rfl, hover, execClkAdv_refused hover⟩
    · exact .inl ⟨_, exec_clkAdv_of_le hlimit⟩
  · refine .inl ?_
    cases hen : enabled i s with
    | false => exact ⟨s, exec_of_not_enabled hen⟩
    | true =>
      cases i with
      | clkAdv delta => exact absurd ⟨delta, rfl⟩ hclk
      | pinSet | reset | busRd | busWr => exact ⟨_, rfl⟩
      | edgeIsr | advance | pulseOn | pulseOff | reconf | tick => exact ⟨_, require_true hen _ _⟩
      | pop =>
        obtain ⟨htask, hwait⟩ := (enabled_pop_iff s).1 hen
        obtain ⟨ev, rest, hfifo⟩ := List.exists_cons_of_length_pos hwait
        exact ⟨_, exec_pop_of_cons htask hfifo⟩

end

/-- Settles O24: a hold is the whole answer of every operation whose condition is false. -/
theorem notEnabledWritesNothing : Obligations.NotEnabledWritesNothing :=
  fun _ _ => exec_of_not_enabled

/-- Settles O25: there is no fault to answer, and the one refusal is CLK_ADV's. -/
theorem onlyTheClockLimitRefuses : Obligations.OnlyTheClockLimitRefuses := by
  refine fun i s => ⟨fun f _ => (nomatch f), fun r hr => ?_⟩
  rcases exec_outcome i s with ⟨t, ht⟩ | ⟨delta, rfl, hover, hex⟩
  · exact absurd (ht.symm.trans hr) (by simp)
  · exact ⟨delta, rfl, hover, by simpa using hr.symm.trans hex⟩

/-! ## Frames (R78, R121, R175) -/

/-- Settles O26: each effect of an environment operation writes the fields the statement names. -/
theorem environmentFrame : Obligations.EnvironmentFrame := by
  refine fun s t => ⟨fun level h => ?_, fun delta h => ?_, fun offset h => ?_, fun offset h => ?_, fun h => ?_⟩
  · obtain rfl := execPinSet_next h
    rcases setPin_cases s level with ⟨-, e⟩ | ⟨-, e⟩ <;> rw [e]
  · obtain ⟨-, rfl⟩ := execClkAdv_next h
    rfl
  · obtain rfl := execBusRd_next h
    rfl
  · obtain rfl := execBusWr_next h
    rfl
  · obtain rfl := execReset_next h
    exact ⟨rfl, rfl, rfl, rfl, List.prefix_append _ _⟩

/-- Settles O27: by the outcomes of EDGE_ISR and the effect of TICK. -/
theorem interruptFrame : Obligations.InterruptFrame := by
  refine fun s t => ⟨fun h => ?_, fun h => ?_⟩ <;> rcases exec_next h with heff | ⟨-, rfl⟩
  -- the holds, which write nothing, then the effects
  any_goals rfl
  all_goals cases heff <;> rfl

/-- Settles O28: by the effects of the TASK agent's operations. -/
theorem taskFrame : Obligations.TaskFrame := by
  refine fun s t => ⟨fun h => ?_, fun h => ?_, fun h => ?_, fun h => ?_, fun fail h => ?_⟩ <;>
    rcases exec_next h with heff | ⟨-, rfl⟩
  -- the holds, which write nothing, then the effects
  any_goals rfl
  all_goals cases heff <;> rfl

/-- Settles O14: RESET is always enabled, and its step is the reset state with the record. -/
theorem resetGivesTheResetState : Obligations.ResetGivesTheResetState :=
  ⟨rfl, fun _ => ⟨rfl, rfl⟩⟩

end Sys2Proof.Machine
end

section
/-! The step: the word at the head of the stream, and the byte stream of an interleaving (R74, R77, R112). -/

namespace Sys2Proof.Machine

/-! ## One step (R112) -/

theorem step_of_operation {s : State} {i : Instr} {rest : List Byte} (hadm : s.cfg.admitted = true)
    (hfetch : fetchWord s.stream = .operation i rest) : step s = exec i (s.afterWord rest) := by
  rw [step, if_pos hadm, State.fetch, hfetch]

theorem step_of_invalidWord {s : State} {bytes : List Byte} (hadm : s.cfg.admitted = true)
    (hfetch : fetchWord s.stream = .invalidWord bytes) : step s = .refused (.invalidWord bytes) := by
  rw [step, if_pos hadm, State.fetch, hfetch]

/-- Settles O8: the four bytes hold the word, whose operation the stream offers. -/
theorem stepRunsDecodedOperation : Obligations.StepRunsDecodedOperation := by
  intro s b0 b1 b2 b3 rest w i hadm hstream hw hdec _
  obtain rfl := bytesWord_eq_of_toNat hw
  exact step_of_operation hadm (hstream ▸ fetchWord_of_operation hdec rest)

/-- Settles O9: a whole word by its decoding, an incomplete one by its length. -/
theorem invalidWordRefused : Obligations.InvalidWordRefused := by
  refine ⟨fun s b0 b1 b2 b3 rest w hadm hstream hw hdec => ?_, fun s hadm hne hlt => ?_⟩
  · obtain rfl := bytesWord_eq_of_toNat hw
    exact step_of_invalidWord hadm (hstream ▸ fetchWord_of_invalidWord hdec rest)
  · exact step_of_invalidWord hadm (fetchWord_partial hne hlt)

/-! ## The stream of an interleaving (R74, R77) -/

/-- R77: with the word of an operation at the head of the stream, the step is that operation. -/
theorem step_wordBytes {i : Instr} {s t : State} (hadm : s.cfg.admitted = true) (htakes : Takes i s t)
    (rest : List Byte) : step (s.afterWord (wordBytes (encode i) ++ rest)) = .next (t.afterWord rest) := by
  obtain ⟨hwf, -, hexec⟩ := htakes
  have hfetch : fetchWord (wordBytes (encode i) ++ rest) = .operation i rest := by
    rw [fetchWord_wordBytes, decode_encode hwf]
  exact (step_of_operation (s := s.afterWord (wordBytes (encode i) ++ rest)) hadm hfetch).trans
    (exec_afterWord hexec rest)

theorem run_succ_of_step {s t : State} (h : step s = .next t) (k : Nat) :
    core.run (k + 1) s = core.run k t := by
  have hcore : core.step s = .next t := h
  simp only [Host.Core.run, hcore]

/-- R77: as many steps as the interleaving has operations, on its byte stream, lead where it leads. -/
theorem run_encodeStream {s t : State} {is : List Instr} (hpath : Path s is t) (rest : List Byte)
    (hadm : s.cfg.admitted = true) :
    core.run is.length (s.afterWord (encodeStream is ++ rest)) = .next (t.afterWord rest) := by
  induction hpath with
  | nil => rfl
  | @cons i is s t u htakes _ ih =>
    have hstep := step_wordBytes hadm htakes (encodeStream is ++ rest)
    have hcfg : t.cfg = s.cfg := exec_cfg htakes.2.2
    rw [encodeStream, List.flatMap_cons, List.append_assoc, List.length_cons]
    exact (run_succ_of_step hstep _).trans (ih (hcfg ▸ hadm))

/-- Settles O11: by induction on the interleaving. -/
theorem streamRunsTheInterleaving : Obligations.StreamRunsTheInterleaving :=
  fun _ _ _ rest hadm hpath => run_encodeStream hpath rest hadm

end Sys2Proof.Machine
end

section
/-! The invariants of R45: every effect of an operation keeps them, so every step does, and every interleaving. -/

namespace Sys2Proof.Machine

/-! ## Inductions over steps and interleavings -/

/-- What every effect keeps, and taking a word off the stream keeps, every step keeps. -/
theorem step_keeps {P : State → Prop} (hword : ∀ s rest, P s → P (s.afterWord rest))
    (heff : ∀ {i s t}, P s → Effect s i t → P t) {s t : State} (hs : P s) (h : step s = .next t) : P t := by
  obtain ⟨-, ⟨-, rfl⟩ | ⟨i, rest, -, hexec⟩⟩ := step_next h
  · exact hs
  · rcases exec_next hexec with he | ⟨-, rfl⟩
    · exact heff (hword s rest hs) he
    · exact hword s rest hs

/-- What every operation of an interleaving keeps holds at its end. -/
theorem path_keeps {P : State → Prop} {s t : State} {is : List Instr} (h : Path s is t)
    (heff : ∀ {i s t}, i ∈ is → P s → Effect s i t → P t) (hs : P s) : P t := by
  induction h with
  | nil => exact hs
  | cons htakes _ ih =>
    exact ih (fun hi => heff (List.mem_cons_of_mem _ hi)) (heff List.mem_cons_self hs htakes.effect)

/-! ## Sums that do not wrap (R200) -/

theorem clockLimit_eq : clockLimit = 2 ^ 64 - 2 ^ 33 := rfl

theorem add_deltaTime_toNat {t : Time} {delta : BitVec 24} (h : t.toNat + delta.toNat ≤ clockLimit) :
    (t + deltaTime delta).toNat = t.toNat + delta.toNat := by
  rw [clockLimit_eq] at h
  rw [add_deltaTime, BitVec.toNat_ofNat, Nat.mod_eq_of_lt (by omega)]

theorem add_periodTime_toNat {t : Time} {p res : Word} (h : t.toNat ≤ clockLimit + res.toNat) :
    (t + periodTime p).toNat = t.toNat + p.toNat := by
  have hp := p.isLt
  have hres := res.isLt
  rw [clockLimit_eq] at h
  rw [time_add_toNat, periodTime_toNat]
  rw [periodTime_toNat]
  omega

/-! ## Modes (R158) -/

theorem BlockInv.modes_pos {s : State} (h : BlockInv s) : 0 < s.cfg.modes :=
  Nat.zero_lt_of_lt h.modeBound

/-- R14, R158: with at most 256 modes the next mode is not cut by its 8 bits. -/
theorem nextMode_toNat {c : Config} (hc : c.admitted = true) (m : BitVec 8) :
    (nextMode c m).toNat = (m.toNat + 1) % c.modes := by
  obtain ⟨hpos, hle, -⟩ := (Config.admitted_iff c).1 hc
  have hlt : (m.toNat + 1) % c.modes < c.modes := Nat.mod_lt _ hpos
  rw [nextMode, BitVec.toNat_ofNat, Nat.mod_eq_of_lt (by omega)]

theorem modeReset_toNat {c : Config} (hc : c.admitted = true) : (BitVec.ofNat 8 c.modeReset).toNat = c.modeReset := by
  obtain ⟨-, hle, -, -, -, hlt, -⟩ := (Config.admitted_iff c).1 hc
  rw [BitVec.toNat_ofNat, Nat.mod_eq_of_lt (by omega)]

theorem modeReset_lt {c : Config} (hc : c.admitted = true) : c.modeReset < c.modes := by
  obtain ⟨-, -, -, -, -, hlt, -⟩ := (Config.admitted_iff c).1 hc
  exact hlt

/-! ## The invariants of R45 -/

theorem BlockInv.afterWord {s : State} (h : BlockInv s) (rest : List Byte) : BlockInv (s.afterWord rest) :=
  { h with }

/-- R246: the reset state meets the invariants, wherever the clock stands within its limit. -/
theorem BlockInv.of_resetState {s : State} (hadm : s.cfg.admitted = true) (hnow : s.now.toNat ≤ clockLimit) :
    BlockInv s.resetState where
  admitted := hadm
  fifoBound := Nat.zero_le _
  modeBound := (modeReset_toNat hadm).trans_lt (modeReset_lt hadm)
  periodAboveRes := nofun
  ledIsPhase := rfl
  buzIffHold := by simp
  debLastZero _ := rfl
  debLastPast := nofun
  pulsePast := nofun
  disabledNormal _ := ⟨rfl, rfl, rfl⟩
  duePositive := nofun
  clockBound := hnow
  dueBound := nofun
  latchBound _ := Nat.zero_le _

/-- R177, R200: one period on from a due time that is reached, the sum does not wrap. -/
theorem BlockInv.next_due_toNat {s : State} (h : BlockInv s)
    (hdue : s.wgDue.toNat ≤ s.now.toNat + s.cfg.clockResUs.toNat) :
    (s.wgDue + periodTime s.wgPeriod).toNat = s.wgDue.toNat + s.wgPeriod.toNat :=
  add_periodTime_toNat (hdue.trans (Nat.add_le_add_right h.clockBound _))

/-- R170, R200: nor does the first due time of a new alarm. -/
theorem BlockInv.first_due_toNat {s : State} (h : BlockInv s) (p : Word) :
    (s.now + periodTime p).toNat = s.now.toNat + p.toNat :=
  add_periodTime_toNat (res := 0) h.clockBound

/-- R45: every effect of an operation keeps the invariants. -/
theorem Effect.blockInv {i : Instr} {s t : State} (h : BlockInv s) (heff : Effect s i t) : BlockInv t := by
  cases heff with
  | pinEdge => exact { h with latchBound := fun hc => by simp [show s.cfg.irqCoalesce = true from hc] }
  | pinQuiet | busRd | busWr => exact { h with }
  | clkAdv hlimit =>
    have hnow := add_deltaTime_toNat hlimit
    have hle : s.now.toNat ≤ (s.now + deltaTime _).toNat := (Nat.le_add_right _ _).trans hnow.ge
    exact { h with
      debLastPast := fun hvalid => (h.debLastPast hvalid).trans hle
      pulsePast := fun htask => (h.pulsePast htask).trans hle
      clockBound := hnow.trans_le hlimit
      dueBound := fun hen => (h.dueBound hen).trans (Nat.add_le_add_right (Nat.add_le_add_right hle _) _) }
  | reset => exact { BlockInv.of_resetState h.admitted h.clockBound with }
  | edgeRejected => exact { h with latchBound := fun hc => (Nat.sub_le _ _).trans (h.latchBound hc) }
  | edgeAccepted _ _ hroom =>
    exact { h with
      fifoBound := by simpa using hroom
      debLastZero := nofun
      debLastPast := fun _ => le_rfl
      latchBound := fun hc => (Nat.sub_le _ _).trans (h.latchBound hc) }
  | edgeDropped =>
    exact { h with
      debLastZero := nofun
      debLastPast := fun _ => le_rfl
      latchBound := fun hc => (Nat.sub_le _ _).trans (h.latchBound hc) }
  | pop htask hfifo =>
    have hbuz : ¬ s.buz = true := by simp [h.buzIffHold, htask]
    have hlen := h.fifoBound
    rw [hfifo, List.length_cons] at hlen
    exact { h with
      fifoBound := Nat.le_of_succ_le hlen
      buzIffHold := by simp [hbuz]
      pulsePast := nofun }
  | advance htask =>
    have hbuz : ¬ s.buz = true := by simp [h.buzIffHold, htask]
    exact { h with
      modeBound := (nextMode_toNat h.admitted s.mode).trans_lt (Nat.mod_lt _ h.modes_pos)
      buzIffHold := by simp [hbuz]
      pulsePast := nofun }
  | pulseOn => exact { h with buzIffHold := by simp, pulsePast := fun _ => le_rfl }
  | pulseOff => exact { h with buzIffHold := by simp, pulsePast := nofun }
  | reconfDisabled htask | reconfFailed htask =>
    have hbuz : ¬ s.buz = true := by simp [h.buzIffHold, htask]
    exact { h with
      periodAboveRes := nofun
      ledIsPhase := rfl
      buzIffHold := by simp [hbuz]
      pulsePast := nofun
      disabledNormal := fun _ => ⟨rfl, rfl, rfl⟩
      duePositive := nofun
      dueBound := nofun }
  | @reconfCreated p htask hspec =>
    have hbuz : ¬ s.buz = true := by simp [h.buzIffHold, htask]
    have hperiod := specOf_period h.admitted h.modeBound hspec
    have hdue := h.first_due_toNat p
    have hpos : 0 < (s.now + periodTime p).toNat := by omega
    have hbound : (s.now + periodTime p).toNat ≤ s.now.toNat + s.cfg.clockResUs.toNat + p.toNat := by omega
    exact { h with
      periodAboveRes := fun _ => hperiod
      ledIsPhase := rfl
      buzIffHold := by simp [hbuz]
      pulsePast := nofun
      disabledNormal := nofun
      duePositive := fun _ => hpos
      dueBound := fun _ => hbound }
  | tick hen hdue =>
    have hnext := h.next_due_toNat hdue
    have hpos := h.duePositive hen
    have hpos' : 0 < (s.wgDue + periodTime s.wgPeriod).toNat := by omega
    have hbound : (s.wgDue + periodTime s.wgPeriod).toNat ≤
        s.now.toNat + s.cfg.clockResUs.toNat + s.wgPeriod.toNat := by omega
    exact { h with
      ledIsPhase := rfl
      disabledNormal := fun hdis => absurd (hen.symm.trans hdis) (by decide)
      duePositive := fun _ => hpos'
      dueBound := fun _ => hbound }

/-- Settles O38: R45's invariants are kept by each effect. -/
theorem stepKeepsTheInvariants : Obligations.StepKeepsTheInvariants :=
  fun _ _ => step_keeps (fun _ rest h => h.afterWord rest) Effect.blockInv

theorem BlockInv.of_start {s : State} (h : Start s) : BlockInv s := by
  obtain ⟨cfg, inLevel, now, stream, hadm, hnow, rfl⟩ := h
  exact .of_resetState hadm hnow

theorem BlockInv.of_path {s t : State} {is : List Instr} (h : BlockInv s) (hpath : Path s is t) : BlockInv t :=
  path_keeps hpath (fun _ => Effect.blockInv) h

/-- Settles O39: by induction on the interleaving, from the power-on state. -/
theorem reachableStatesMeetTheInvariants : Obligations.ReachableStatesMeetTheInvariants := by
  rintro s ⟨s₀, is, hstart, hpath⟩
  exact (BlockInv.of_start hstart).of_path hpath

end Sys2Proof.Machine
end

section
/-! What the history says since the last reset (R43): every effect of an operation keeps it in step with the state. -/

namespace Sys2Proof.Machine

/-! ## The history grows (R43, R202) -/

theorem Effect.hist_prefix {i : Instr} {s t : State} (heff : Effect s i t) : s.hist <+: t.hist := by
  cases heff with
  | pinEdge | pinQuiet | clkAdv | advance => exact List.prefix_rfl
  | reset | busRd | busWr | edgeRejected | edgeAccepted | edgeDropped | pop | pulseOn | pulseOff | tick =>
    exact List.prefix_append _ _
  | reconfDisabled | reconfFailed | reconfCreated => simp [List.append_assoc]

/-- R43: records other than Reset records only add to what the history says since the last reset. -/
@[simp] theorem sinceReset_append {rs : List Record} (hrs : ∀ t, Record.reset t ∉ rs) (h : List Record) :
    sinceReset (h ++ rs) = sinceReset h ++ rs := by
  induction rs generalizing h with
  | nil => simp
  | cons r rs ih =>
    have hr : sinceReset (h ++ [r]) = sinceReset h ++ [r] := by
      cases r with
      | reset t => exact absurd List.mem_cons_self (hrs t)
      | _ => simp
    rw [List.append_cons, ih (fun t ht => hrs t (List.mem_cons_of_mem _ ht)), hr, List.append_assoc,
      List.singleton_append]

theorem Effect.cfg_eq {i : Instr} {s t : State} (heff : Effect s i t) : t.cfg = s.cfg :=
  exec_cfg heff.exec_eq

/-- Settles O47: every effect appends to the history and keeps the parameters. -/
theorem historyGrowsAndParametersStay : Obligations.HistoryGrowsAndParametersStay := by
  intro s t
  exact step_keeps (P := fun u => s.hist <+: u.hist ∧ u.cfg = s.cfg) (fun _ _ h => h)
    (fun ⟨hpre, hcfg⟩ heff => ⟨hpre.trans heff.hist_prefix, heff.cfg_eq.trans hcfg⟩) ⟨List.prefix_rfl, rfl⟩

/-! ## The channel in order (R146 (a)) -/

theorem Effect.channelInOrder {i : Instr} {s t : State} (h : ChannelInOrder s) (heff : Effect s i t) :
    ChannelInOrder t := by
  unfold ChannelInOrder pushedEvents poppedEvents at h ⊢
  cases heff with
  | reset => simp
  | edgeAccepted => simp [List.filterMap_cons, Record.pushed, Record.popped, h]
  | pop _ hfifo => simp [List.filterMap_cons, Record.pushed, Record.popped, h, hfifo]
  | _ => simpa [List.filterMap_cons, Record.pushed, Record.popped] using h

/-- Settles O40: an accepted edge enters at the tail, POP takes the head, RESET empties all three lists. -/
theorem stepKeepsTheChannelInOrder : Obligations.StepKeepsTheChannelInOrder :=
  fun _ _ => step_keeps (fun _ _ h => h) Effect.channelInOrder

/-! ## Dropped edges counted (R36, R142) -/

theorem Effect.dropsCounted {i : Instr} {s t : State} (h : DropsCounted s) (heff : Effect s i t) :
    DropsCounted t := by
  unfold DropsCounted droppedEdges at h ⊢
  cases heff with
  | reset => simp
  | edgeDropped =>
    simp [List.filter_cons, Record.isDrop, sat32_toNat]
    omega
  | _ => simpa [List.filter_cons, Record.isDrop] using h

/-- Settles O42: a dropped edge counts one in both, up to saturation. -/
theorem stepKeepsDropsCounted : Obligations.StepKeepsDropsCounted :=
  fun _ _ => step_keeps (fun _ _ h => h) Effect.dropsCounted

/-! ## The LED's last write (R43) -/

theorem Effect.ledShowsLastWrite {i : Instr} {s t : State} (h : LedShowsLastWrite s) (heff : Effect s i t) :
    LedShowsLastWrite t := by
  unfold LedShowsLastWrite ledWrites at h ⊢
  cases heff with
  | reset => simp
  | tick | reconfDisabled | reconfFailed | reconfCreated => simp [List.filterMap_cons, Record.ledWrite]
  | _ => simpa [List.filterMap_cons, Record.ledWrite] using h

/-- Settles O45: TICK and RECONF record what they drive, and nothing else drives the LED but RESET. -/
theorem stepKeepsLedWrites : Obligations.StepKeepsLedWrites :=
  fun _ _ => step_keeps (fun _ _ h => h) Effect.ledShowsLastWrite

/-! ## The mode counts events (R160 (b)) -/

theorem Effect.modeCountsEvents {i : Instr} {s t : State} (hinv : BlockInv s) (h : ModeCountsEvents s)
    (heff : Effect s i t) : ModeCountsEvents t := by
  unfold ModeCountsEvents poppedEvents at h ⊢
  cases heff with
  | reset => simp [modeReset_toNat hinv.admitted]
  | pop htask =>
    have hmode : s.mode.toNat % s.cfg.modes =
        (s.cfg.modeReset + ((sinceReset s.hist).filterMap Record.popped).length) % s.cfg.modes := by
      simpa [htask] using h
    suffices (s.mode.toNat + 1) % s.cfg.modes =
        (s.cfg.modeReset + ((sinceReset s.hist).filterMap Record.popped).length + 1) % s.cfg.modes by
      simpa [Record.popped, Nat.add_assoc] using this
    rw [Nat.add_mod, hmode, ← Nat.add_mod]
  | advance htask =>
    simpa [htask, nextMode_toNat hinv.admitted] using h
  | pulseOn htask | pulseOff htask | reconfDisabled htask | reconfFailed htask | reconfCreated htask =>
    simpa [htask, List.filterMap_cons, Record.popped] using h
  | _ => simpa [List.filterMap_cons, Record.popped] using h

/-- Settles O43: POP counts an event and makes one ADVANCE due, which ADVANCE pays. -/
theorem stepKeepsTheModeCount : Obligations.StepKeepsTheModeCount := by
  intro s t hinv h hstep
  exact (step_keeps (P := fun u => BlockInv u ∧ ModeCountsEvents u) (fun _ rest hu => ⟨hu.1.afterWord rest, hu.2⟩)
    (fun ⟨hu, hm⟩ heff => ⟨heff.blockInv hu, heff.modeCountsEvents hu hm⟩) ⟨hinv, h⟩ hstep).2

/-! ## Accepted edges spaced (R136 (a)) -/

/-- R136: no edge the filter passed lies after the last of them. -/
theorem DebounceSpaced.le_debLast {s : State} (h : DebounceSpaced s) {a : Time} (ha : a ∈ passedTimes s) :
    s.debValid = true ∧ a.toNat ≤ s.debLast.toNat := by
  obtain ⟨hspaced, hlast⟩ := h
  rw [List.getLast?_eq_some_getLast (List.ne_nil_of_mem ha)] at hlast
  cases hvalid : s.debValid with
  | false => simp [hvalid] at hlast
  | true =>
    have hdeb : (passedTimes s).getLast (List.ne_nil_of_mem ha) = s.debLast := by simpa [hvalid] using hlast
    have hmono : (passedTimes s).Pairwise fun a b => a.toNat ≤ b.toNat :=
      hspaced.imp fun hab => (Nat.le_add_right _ _).trans hab
    exact ⟨rfl, hdeb ▸ hmono.rel_getLast_of_rel_getLast_getLast ha le_rfl⟩

/-- R131: where the filter does not reject, the window since the last edge it passed is over. -/
theorem settled_of_not_rejects {s : State} (hinv : BlockInv s) (hvalid : s.debValid = true)
    (hrej : s.filterRejects s.now = false) : s.debLast.toNat + s.cfg.settleWindowUs.toNat ≤ s.now.toNat := by
  have hpast := hinv.debLastPast hvalid
  have helapsed : ¬ (s.elapsed s.now).toNat < s.cfg.settleWindowUs.toNat := by
    simpa [State.filterRejects, hvalid] using hrej
  rw [elapsed_toNat hpast] at helapsed
  omega

/-- R136: an edge the filter passes lies a settle window after every earlier one. -/
theorem DebounceSpaced.of_passed {s t : State} (hinv : BlockInv s) (h : DebounceSpaced s)
    (hrej : s.filterRejects s.now = false) (hcfg : t.cfg = s.cfg) (hpassed : passedTimes t = passedTimes s ++ [s.now])
    (hvalid : t.debValid = true) (hlast : t.debLast = s.now) : DebounceSpaced t := by
  refine ⟨?_, by simp [hpassed, hvalid, hlast]⟩
  rw [hpassed, hcfg, List.pairwise_append]
  refine ⟨h.1, List.pairwise_singleton _ _, fun a ha b hb => ?_⟩
  obtain rfl := List.mem_singleton.1 hb
  obtain ⟨hsvalid, hle⟩ := h.le_debLast ha
  exact (Nat.add_le_add_right hle _).trans (settled_of_not_rejects hinv hsvalid hrej)

theorem Effect.debounceSpaced {i : Instr} {s t : State} (hinv : BlockInv s) (h : DebounceSpaced s)
    (heff : Effect s i t) : DebounceSpaced t := by
  cases heff with
  | edgeAccepted _ hrej | edgeDropped _ hrej =>
    exact h.of_passed hinv hrej rfl (by simp [passedTimes, Record.passed, State.sampleEdge]) rfl rfl
  | reset => simp [DebounceSpaced, passedTimes]
  | _ => simpa [DebounceSpaced, passedTimes, List.filterMap_cons, Record.passed] using h

/-- Settles O41: the window that EDGE_ISR tests is the distance the law speaks of. -/
theorem stepKeepsEdgesSpaced : Obligations.StepKeepsEdgesSpaced := by
  intro s t hinv h hstep
  exact (step_keeps (P := fun u => BlockInv u ∧ DebounceSpaced u) (fun _ rest hu => ⟨hu.1.afterWord rest, hu.2⟩)
    (fun ⟨hu, hd⟩ heff => ⟨heff.blockInv hu, heff.debounceSpaced hu hd⟩) ⟨hinv, h⟩ hstep).2

/-! ## Pulses held (R187, R188, R258) -/

/-- R187: a buzzer write may follow another: the other value, and after a high one not before its duration. -/
def BuzFollows (duration : Nat) (x y : Bool × Time) : Prop :=
  y.1 = !x.1 ∧ (x.1 = true → x.2.toNat + duration ≤ y.2.toNat)

/-- The law of the pulses, on the list of the buzzer's writes. -/
theorem pulsesHeld_iff (s : State) :
    PulsesHeld s ↔
      (buzWrites s).IsChain (BuzFollows s.cfg.pulseDurationUs.toNat) ∧
      (∀ x, (buzWrites s).getLast? = some x → s.buz = x.1 ∧ (x.1 = true → x.2 = s.pulseT0)) ∧
      (∀ x, (buzWrites s).head? = some x → x.1 = true) ∧
      (buzWrites s = [] → s.buz = false) := by
  constructor
  · rintro ⟨hnext, hlast, hhead, hnil⟩
    refine ⟨List.isChain_iff_forall_rel_of_append_cons_cons.2 fun x y l r e => hnext l _ _ _ _ r e,
      fun x hx => ?_, fun x hx => ?_, hnil⟩
    · obtain ⟨l, e⟩ := List.getLast?_eq_some_iff.1 hx
      exact hlast l _ _ e
    · obtain ⟨r, e⟩ := List.head?_eq_some_iff.1 hx
      exact hhead _ _ r e
  · rintro ⟨hchain, hlast, hhead, hnil⟩
    exact ⟨fun l v t v' t' r e => List.isChain_iff_forall_rel_of_append_cons_cons.1 hchain e,
      fun l v t e => hlast (v, t) (by simp [e]), fun v t r e => hhead (v, t) (by simp [e]), hnil⟩

/-- R187, R188: a write of the other value, after a high one not before its duration, keeps the law. -/
theorem PulsesHeld.of_write {s t : State} {v : Bool} (h : PulsesHeld s) (hcfg : t.cfg = s.cfg)
    (hwrites : buzWrites t = buzWrites s ++ [(v, s.now)]) (hbuz : t.buz = v) (hstart : v = true → t.pulseT0 = s.now)
    (halt : s.buz = !v)
    (hheld : s.buz = true → s.pulseT0.toNat + s.cfg.pulseDurationUs.toNat ≤ s.now.toNat) : PulsesHeld t := by
  obtain ⟨hchain, hlast, hhead, hnil⟩ := (pulsesHeld_iff s).1 h
  refine (pulsesHeld_iff t).2 ⟨?_, ?_, ?_, ?_⟩
  · rw [hwrites, hcfg]
    refine hchain.append (.singleton _) fun x hx y hy => ?_
    obtain rfl : (v, s.now) = y := by simpa using hy
    obtain ⟨hxbuz, hxt⟩ := hlast x hx
    refine ⟨by simp [← hxbuz, halt], fun hhigh => ?_⟩
    rw [hxt hhigh]
    exact hheld (hxbuz.trans hhigh)
  · rintro x hx
    obtain rfl : (v, s.now) = x := by simpa [hwrites] using hx
    exact ⟨hbuz, fun hv => (hstart hv).symm⟩
  · intro x hx
    cases hws : buzWrites s with
    | nil =>
      obtain rfl : (v, s.now) = x := by simpa [hwrites, hws] using hx
      simpa [halt] using hnil hws
    | cons y ys => exact hhead x (by simpa [hwrites, hws] using hx)
  · simp [hwrites]

theorem Effect.pulsesHeld {i : Instr} {s t : State} (hinv : BlockInv s) (h : PulsesHeld s) (heff : Effect s i t) :
    PulsesHeld t := by
  cases heff with
  | pulseOn htask =>
    have hlow : s.buz = false := by simp [← Bool.not_eq_true, hinv.buzIffHold, htask]
    exact h.of_write rfl (by simp [buzWrites, Record.buzWrite]) rfl (fun _ => rfl) hlow
      (fun hhigh => absurd (hlow.symm.trans hhigh) (by decide))
  | pulseOff htask helapsed =>
    have hhigh : s.buz = true := hinv.buzIffHold.2 htask
    have hpast := hinv.pulsePast htask
    exact h.of_write rfl (by simp [buzWrites, Record.buzWrite]) rfl nofun hhigh
      (fun _ => by omega)
  | reset => simp [PulsesHeld, buzWrites]
  | _ => simpa [PulsesHeld, buzWrites, List.filterMap_cons, Record.buzWrite] using h

/-- Settles O44: PULSE_ON writes high only after a low, PULSE_OFF low only once the duration has elapsed. -/
theorem stepKeepsPulsesHeld : Obligations.StepKeepsPulsesHeld := by
  intro s t hinv h hstep
  exact (step_keeps (P := fun u => BlockInv u ∧ PulsesHeld u) (fun _ rest hu => ⟨hu.1.afterWord rest, hu.2⟩)
    (fun ⟨hu, hp⟩ heff => ⟨heff.blockInv hu, heff.pulsesHeld hu hp⟩) ⟨hinv, h⟩ hstep).2

/-! ## Power-on (R247) -/

/-- R247: with an empty history every history law speaks of the reset values alone. -/
theorem Start.historyLaws {s : State} (h : Start s) :
    ChannelInOrder s ∧ DebounceSpaced s ∧ DropsCounted s ∧ ModeCountsEvents s ∧ PulsesHeld s ∧ LedShowsLastWrite s := by
  obtain ⟨cfg, inLevel, now, stream, hadm, -, rfl⟩ := h
  refine ⟨rfl, ⟨.nil, rfl⟩, rfl, ?_, ?_, rfl⟩
  · simp [ModeCountsEvents, poppedEvents, modeReset_toNat hadm]
  · simp [PulsesHeld, buzWrites]

/-- Settles O37: the power-on state is a reset state with an empty history. -/
theorem powerOnMeetsTheInvariants : Obligations.PowerOnMeetsTheInvariants :=
  ⟨fun _ h => ⟨.of_start h, h.historyLaws⟩, rfl, _, _, _, _, rfl, by decide, rfl⟩

end Sys2Proof.Machine
end

section
/-! STATUS field by field (R47), the register names (R75, R110), the packed records (R90, R91, R94), and the HI-LO-HI
read of the clock (R253). -/

namespace Sys2Proof.Machine

/-! ## STATUS (R47) -/

/-- A bit of a value is the remainder, modulo 2, of its quotient by the bit's weight. -/
theorem getLsbD_of_div_mod {n : Nat} {w : BitVec n} {k : Nat} {b : Bool} (h : w.toNat / 2 ^ k % 2 = b.toNat) :
    w.getLsbD k = b := by
  rw [← BitVec.testBit_toNat, Nat.testBit_eq_decide_div_mod_eq, h]
  cases b <;> rfl

/-- R47: every field of STATUS, at its place. -/
theorem statusWord_fields (s : State) :
    (statusWord s).toNat / 2 ^ 0 % 2 = s.led.toNat ∧ (statusWord s).toNat / 2 ^ 1 % 2 = s.buz.toNat ∧
    (statusWord s).toNat / 2 ^ 2 % 2 = s.wgEn.toNat ∧ (statusWord s).toNat / 2 ^ 3 % 2 = s.reconfErr.toNat ∧
    (statusWord s).toNat / 2 ^ 4 % 2 = s.inLevel.toNat ∧ (statusWord s).toNat / 2 ^ 5 % 2 = s.debValid.toNat ∧
    (statusWord s).toNat / 2 ^ 6 % 4 = s.lastOutcome.code.toNat ∧
    (statusWord s).toNat / 2 ^ 8 % 8 = s.task.code.toNat ∧
    (statusWord s).toNat / 2 ^ 11 % 2 = s.ctlValid.toNat ∧ (statusWord s).toNat / 2 ^ 16 % 256 = s.mode.toNat := by
  have hmode := s.mode.isLt
  have htask := s.task.code.isLt
  have hout := s.lastOutcome.code.isLt
  have hctl := Bool.toNat_lt s.ctlValid
  have hdeb := Bool.toNat_lt s.debValid
  have hpin := Bool.toNat_lt s.inLevel
  have herr := Bool.toNat_lt s.reconfErr
  have hen := Bool.toNat_lt s.wgEn
  have hbuz := Bool.toNat_lt s.buz
  have hled := Bool.toNat_lt s.led
  rw [statusWord_toNat]
  omega

theorem EdgeOutcome.code_toNat (o : EdgeOutcome) :
    o.code.toNat = match o with
      | .none => 0
      | .accepted => 1
      | .rejected => 2
      | .dropped => 3 := by
  cases o <;> rfl

theorem TaskPos.code_toNat (p : TaskPos) :
    p.code.toNat = match p with
      | .pop => 0
      | .advance => 1
      | .pulseOn => 2
      | .pulseHold => 3
      | .reconf => 4 := by
  cases p <;> rfl

/-- R47, R246: after RESET only the mode and the pin show in STATUS. -/
theorem statusWord_reset {s : State} (hadm : s.cfg.admitted = true) (r : Record) :
    statusWord (s.resetState.record r) =
      BitVec.ofNat 32 (s.cfg.modeReset * 2 ^ 16 + if s.inLevel then 2 ^ 4 else 0) := by
  refine word_eq_ofNat ?_
  rw [statusWord_toNat]
  cases hpin : s.inLevel <;>
    simp [modeReset_toNat hadm, hpin, State.ctlValid, TaskPos.code, EdgeOutcome.code]

/-- Settles O29: STATUS bit by bit and as a sum of fields; a port write only adds a record, which no register shows. -/
theorem statusRegister : Obligations.StatusRegister := by
  refine ⟨fun s => ?_, fun s t h hadm => ?_, fun s t offset h a => ?_⟩
  · obtain ⟨hled, hbuz, hen, herr, hpin, hdeb, hout, htask, hctl, hmode⟩ := statusWord_fields s
    obtain ⟨hlow, hhigh⟩ := statusWord_reserved s
    exact ⟨_, memRead_offset .status s, getLsbD_of_div_mod hled, getLsbD_of_div_mod hbuz, getLsbD_of_div_mod hen,
      getLsbD_of_div_mod herr, getLsbD_of_div_mod hpin, getLsbD_of_div_mod hdeb, hout.trans (EdgeOutcome.code_toNat _),
      htask.trans (TaskPos.code_toNat _), getLsbD_of_div_mod hctl, hlow, hmode, hhigh⟩
  · obtain rfl := execReset_next h
    exact (memRead_offset .status _).trans (congrArg (·, Resp.ok) (statusWord_reset hadm _))
  · obtain rfl := execBusWr_next h
    exact portReg_record s _ a

/-! ## Register names (R75, R110) -/

/-- R75: an aligned offset in the MODE_TABLE window is that of the entry it falls in. -/
theorem PortReg.offset_modeTable {a : BitVec 11} (ha : a.toNat % 4 = 0) (h : 0x400 ≤ a.toNat) :
    (PortReg.modeTable (BitVec.ofNat 8 ((a.toNat - 0x400) / 4))).offset = a := by
  have hlt := a.isLt
  apply BitVec.eq_of_toNat_eq
  simp only [offset, BitVec.toNat_ofNat]
  omega

/-- R75: a register stands at no aligned offset but its own. -/
theorem PortReg.offset_of_ofOffset {a : BitVec 11} {r : PortReg} (ha : a.toNat % 4 = 0)
    (h : ofOffset a = some r) : r.offset = a := by
  rcases Nat.lt_or_ge a.toNat 0x400 with hlt | hge
  · rw [ofOffset, if_neg (Nat.not_le.2 hlt)] at h
    split at h
    case h_19 => exact absurd h (by simp)
    all_goals
      obtain rfl := Option.some.inj h
      exact BitVec.eq_of_toNat_eq (Eq.symm ‹_›)
  · rw [ofOffset_window hge] at h
    obtain rfl := Option.some.inj h
    exact offset_modeTable ha hge

/-- Settles O35: each name by its offset, each offset by the name found there. -/
theorem registerNamesAreOneToOne : Obligations.RegisterNamesAreOneToOne :=
  ⟨fun r => ⟨r.offset_aligned, r.ofOffset_offset⟩, fun _ _ => PortReg.offset_of_ofOffset⟩

/-! ## Packed records (R90, R91, R94) -/

/-- R90: the packed RawEdgeEvent as the sum of its fields. -/
theorem RawEdgeEvent.pack_toNat (e : RawEdgeEvent) :
    e.pack.toNat = e.pin.toNat * 2 ^ 65 + (if e.level then 2 ^ 64 else 0) + e.tsUs.toNat := by
  have hts := e.tsUs.isLt
  simp only [pack, BitVec.toNat_append, BitVec.toNat_ofBool]
  rw [← Nat.shiftLeft_add_eq_or_of_lt (by omega), ← Nat.shiftLeft_add_eq_or_of_lt (Bool.toNat_lt _)]
  simp only [Nat.shiftLeft_eq]
  cases e.level <;> simp <;> omega

/-- R91: the packed AcceptedEvent as the sum of its fields. -/
theorem AcceptedEvent.pack_toNat (e : AcceptedEvent) :
    e.pack.toNat = (if e.level then 2 ^ 64 else 0) + e.tsUs.toNat := by
  have hts := e.tsUs.isLt
  simp only [pack, BitVec.toNat_append, BitVec.toNat_ofBool]
  rw [← Nat.shiftLeft_add_eq_or_of_lt (by omega)]
  simp only [Nat.shiftLeft_eq]
  cases e.level <;> simp

theorem RawEdgeEvent.unpack_pack (e : RawEdgeEvent) : unpack e.pack = e := by
  have hts64 := e.tsUs.isLt
  have hpin8 := e.pin.isLt
  have hpin : e.pack.extractLsb' 65 8 = e.pin := by
    apply BitVec.eq_of_toNat_eq
    rw [BitVec.extractLsb'_toNat, Nat.shiftRight_eq_div_pow, e.pack_toNat]
    split <;> omega
  have hlevel : e.pack.getLsbD 64 = e.level := by
    apply getLsbD_of_div_mod
    rw [e.pack_toNat]
    cases e.level <;> simp <;> omega
  have hts : e.pack.extractLsb' 0 64 = e.tsUs := by
    apply BitVec.eq_of_toNat_eq
    rw [BitVec.extractLsb'_toNat, Nat.shiftRight_zero, e.pack_toNat]
    split <;> omega
  rw [unpack, hpin, hlevel, hts]

theorem AcceptedEvent.unpack_pack (e : AcceptedEvent) : unpack e.pack = e := by
  have hts64 := e.tsUs.isLt
  have hlevel : e.pack.getLsbD 64 = e.level := by
    apply getLsbD_of_div_mod
    rw [e.pack_toNat]
    cases e.level <;> simp <;> omega
  have hts : e.pack.extractLsb' 0 64 = e.tsUs := by
    apply BitVec.eq_of_toNat_eq
    rw [BitVec.extractLsb'_toNat, Nat.shiftRight_zero, e.pack_toNat]
    split <;> omega
  rw [unpack, hlevel, hts]

/-- R94: every word is the packed form of the spec it encodes. -/
theorem pack_unpack (w : Word) : (WaveformSpec.unpack w).pack = w := by
  unfold WaveformSpec.unpack
  split
  case isTrue hzero => exact hzero.symm
  case isFalse => rfl

/-- R93, R94: a spec in normal form is the one its packed form encodes. -/
theorem unpack_pack {spec : WaveformSpec} (h : spec ≠ .enabled 0) : WaveformSpec.unpack spec.pack = spec := by
  cases spec with
  | disabled => rfl
  | enabled p => exact if_neg fun hzero => h (congrArg _ hzero)

/-- Settles O36: each layout as a sum of fields, and each unpacked field from its place. -/
theorem packedLayouts : Obligations.PackedLayouts :=
  ⟨fun e => ⟨e.unpack_pack, e.pack_toNat⟩, fun e => ⟨e.unpack_pack, e.pack_toNat⟩, pack_unpack, fun _ => unpack_pack⟩

/-! ## The HI-LO-HI read of the clock (R253) -/

/-- R198: the clock does not run back along an interleaving. -/
theorem path_now_le {s t : State} {is : List Instr} (h : Path s is t) : s.now.toNat ≤ t.now.toNat := by
  rw [path_now_toNat h]
  exact Nat.le_add_right _ _

/-- Settles O58: between two equal HI reads a clock that does not run back has the same HI at the LO read. -/
theorem hiLoHiReadsTheClock : Obligations.HiLoHiReadsTheClock := by
  intro s₁ s₂ s₃ is₁ is₂ hi lo _ h₁₂ h₂₃ hr₁ hr₂ hr₃
  rw [memRead_offset] at hr₁ hr₂ hr₃
  have hi₁ : s₁.now.toNat / 2 ^ 32 = hi.toNat := (hiHalf_toNat _).symm.trans (congrArg (·.1.toNat) hr₁)
  have hi₃ : s₃.now.toNat / 2 ^ 32 = hi.toNat := (hiHalf_toNat _).symm.trans (congrArg (·.1.toNat) hr₃)
  have lo₂ : s₂.now.toNat % 2 ^ 32 = lo.toNat := (loHalf_toNat _).symm.trans (congrArg (·.1.toNat) hr₂)
  have hle₁₂ := path_now_le h₁₂
  have hle₂₃ := path_now_le h₂₃
  omega

end Sys2Proof.Machine
end

section
/-! The controller's loop (R156), pushes with no pop between them (R146 (b)), the mode along an interleaving (R160), and a
backlog of edges at one clock value (R257). -/

namespace Sys2Proof.Machine

/-! ## The controller's loop (R156) -/

/-- R156: the position the TASK agent's operation at a position leads to. -/
def TaskPos.next : TaskPos → TaskPos
  | .pop => .advance
  | .advance => .pulseOn
  | .pulseOn => .pulseHold
  | .pulseHold => .reconf
  | .reconf => .pop

theorem Effect.task_eq_next {i : Instr} {s t : State} (hagent : i.agent = .task) (heff : Effect s i t) :
    t.task = s.task.next := by
  cases heff with
  | pop htask | advance htask | pulseOn htask | pulseOff htask | reconfDisabled htask | reconfFailed htask
  | reconfCreated htask =>
    rw [htask]
    rfl
  | _ => simp [Instr.agent] at hagent

/-- R17, R156: an enabled operation of the TASK agent answers a next state, by one of its effects. -/
theorem exists_effect_of_enabled {i : Instr} {s : State} (hclk : ∀ delta, i ≠ .clkAdv delta)
    (hen : enabled i s = true) : ∃ t, Effect s i t := by
  rcases exec_outcome i s with ⟨t, ht⟩ | ⟨delta, rfl, -⟩
  · exact ⟨t, .of_exec hen ht⟩
  · exact absurd rfl (hclk delta)

/-- R156: which operation of the TASK agent is enabled, by the position and the row's condition. -/
theorem enabled_task_iff {i : Instr} (hagent : i.agent = .task) (s : State) :
    enabled i s = true ↔
      (i.mnemonic = .POP ∧ s.task = .pop ∧ 0 < s.fifo.length) ∨
      (i.mnemonic = .ADVANCE ∧ s.task = .advance) ∨
      (i.mnemonic = .PULSE_ON ∧ s.task = .pulseOn) ∨
      (i.mnemonic = .PULSE_OFF ∧ s.task = .pulseHold ∧
        s.cfg.pulseDurationUs.toNat ≤ s.now.toNat - s.pulseT0.toNat) ∨
      (i.mnemonic = .RECONF ∧ s.task = .reconf) := by
  cases i with
  | pop => simp [enabled_pop_iff, Instr.mnemonic]
  | advance => simp [enabled_advance_iff, Instr.mnemonic]
  | pulseOn => simp [enabled_pulseOn_iff, Instr.mnemonic]
  | pulseOff => simp [enabled_pulseOff_iff, Instr.mnemonic]
  | reconf fail => simp [enabled_reconf_iff, Instr.mnemonic]
  | _ => simp [Instr.agent] at hagent

/-- Settles O48: the enabling conditions of the five operations, and the position each effect moves to. -/
theorem taskLoop : Obligations.TaskLoop := by
  refine fun s i hagent => ⟨enabled_task_iff hagent s, fun hen => ?_⟩
  have hclk (delta : BitVec 24) : i ≠ .clkAdv delta := by
    rintro rfl
    simp [Instr.agent] at hagent
  obtain ⟨t, heff⟩ := exists_effect_of_enabled hclk hen
  refine ⟨t, heff.exec_eq, (heff.task_eq_next hagent).trans ?_⟩
  cases s.task <;> rfl

/-! ## Pushes with no pop (R146 (b), R142) -/

theorem push_of_room {ev : AcceptedEvent} {s : State} (h : s.fifo.length < s.cfg.capacity) :
    (push ev s).2 = { s with fifo := s.fifo ++ [ev] } := by
  rw [push, if_pos h]

theorem push_of_full {ev : AcceptedEvent} {s : State} (h : s.cfg.capacity ≤ s.fifo.length) :
    (push ev s).2 = { s with dropCount := sat32 (s.dropCount.toNat + 1) } := by
  rw [push, if_neg (Nat.not_lt.2 h)]

theorem sat32_toNat_self (w : Word) : sat32 w.toNat = w := by
  have hw := w.isLt
  apply BitVec.eq_of_toNat_eq
  rw [sat32_toNat]
  omega

/-- Saturating twice is saturating the sum. -/
theorem sat32_sat32_add (m n : Nat) : sat32 ((sat32 m).toNat + n) = sat32 (m + n) := by
  apply BitVec.eq_of_toNat_eq
  simp only [sat32_toNat]
  omega

/-- R146 (b), R142: what a sequence of pushes leaves. -/
theorem pushAll_eq (evs : List AcceptedEvent) {s : State} (h : s.fifo.length ≤ s.cfg.capacity) :
    pushAll evs s = { s with
      fifo := (s.fifo ++ evs).take s.cfg.capacity
      dropCount := sat32 (s.dropCount.toNat + (s.fifo.length + evs.length - s.cfg.capacity)) } := by
  induction evs generalizing s with
  | nil =>
    have hnone : s.fifo.length - s.cfg.capacity = 0 := by omega
    simp [pushAll, List.take_of_length_le h, hnone, sat32_toNat_self]
  | cons ev evs ih =>
    rw [pushAll]
    rcases Nat.lt_or_ge s.fifo.length s.cfg.capacity with hroom | hfull
    · rw [push_of_room hroom, ih (by simpa using hroom)]
      simp [Nat.add_assoc, Nat.add_comm 1]
    · have hcap : s.fifo.length = s.cfg.capacity := Nat.le_antisymm h hfull
      rw [push_of_full hfull, ih (by exact h)]
      simp [sat32_sat32_add, ← hcap, Nat.add_assoc, Nat.add_comm 1]

/-- Settles O49: by induction on the events. -/
theorem pushesKeepTheOldest : Obligations.PushesKeepTheOldest :=
  fun evs _ h => pushAll_eq evs h

/-! ## The mode along an interleaving (R160) -/

theorem Effect.mode_toNat {i : Instr} {s t : State} (hinv : BlockInv s) (hi : i ≠ .reset) (heff : Effect s i t) :
    t.mode.toNat = (s.mode.toNat + [i].count .advance) % s.cfg.modes := by
  have hkeep : s.mode.toNat = s.mode.toNat % s.cfg.modes := (Nat.mod_eq_of_lt hinv.modeBound).symm
  cases heff with
  | advance => exact nextMode_toNat hinv.admitted s.mode
  | reset => exact absurd rfl hi
  | _ => exact hkeep

/-- R160: along an interleaving with no RESET the mode moves by one per ADVANCE, modulo N. -/
theorem path_mode_toNat {s t : State} {is : List Instr} (h : Path s is t) (hinv : BlockInv s)
    (hreset : Instr.reset ∉ is) : t.mode.toNat = (s.mode.toNat + is.count .advance) % s.cfg.modes := by
  induction h with
  | nil => exact (Nat.mod_eq_of_lt hinv.modeBound).symm
  | @cons i is s t u htakes _ ih =>
    obtain ⟨hi, his⟩ := List.ne_and_not_mem_of_not_mem_cons hreset
    have heff := htakes.effect
    rw [ih (heff.blockInv hinv) his, heff.mode_toNat hinv hi.symm, heff.cfg_eq, Nat.mod_add_mod, Nat.add_assoc,
      ← List.count_append, List.singleton_append]

/-- Settles O50: N advances are a whole turn. -/
theorem modeCyclesWithPeriodN : Obligations.ModeCyclesWithPeriodN := by
  intro s t is hinv hpath hreset
  have hmode := path_mode_toNat hpath hinv hreset
  refine ⟨hmode, fun hturn => BitVec.eq_of_toNat_eq ?_⟩
  rw [hmode, hturn, Nat.add_mod_right, Nat.mod_eq_of_lt hinv.modeBound]

/-! ## A backlog at one clock value (R121 (e), R257) -/

/-- R131: right after an EDGE_ISR the filter rejects at the same clock value, if the window is not empty. -/
theorem Effect.filterRejects_of_edgeIsr {s t : State} (hwin : 0 < s.cfg.settleWindowUs.toNat)
    (heff : Effect s .edgeIsr t) : t.filterRejects t.now = true := by
  cases heff with
  | edgeRejected _ hrej => exact hrej
  | edgeAccepted | edgeDropped => simpa [State.filterRejects, State.elapsed] using hwin

/-- R131: what the filter rejects at the present clock value it goes on rejecting there. -/
theorem Effect.filterRejects {i : Instr} {s t : State} (hclk : ∀ delta, i ≠ .clkAdv delta) (hreset : i ≠ .reset)
    (h : s.filterRejects s.now = true) (heff : Effect s i t) : t.filterRejects t.now = true := by
  cases heff with
  | clkAdv => exact absurd rfl (hclk _)
  | reset => exact absurd rfl hreset
  | edgeAccepted _ hrej | edgeDropped _ hrej => exact absurd (hrej.symm.trans h) (by decide)
  | _ => exact h

/-- Settles O51: the rejection at the present clock value is kept up to the second EDGE_ISR. -/
theorem backlogIsFilteredToTheFirst : Obligations.BacklogIsFilteredToTheFirst := by
  intro s t u v is hwin hfirst hpath hclk hreset hsecond
  have hrej : u.filterRejects u.now = true :=
    path_keeps (P := fun w => w.filterRejects w.now = true) hpath
      (fun hi => Effect.filterRejects (fun delta e => hclk delta (e ▸ hi)) (fun e => hreset (e ▸ hi)))
      (hfirst.effect.filterRejects_of_edgeIsr hwin)
  cases hsecond.effect with
  | edgeRejected => exact ⟨rfl, rfl, rfl, rfl, rfl⟩
  | edgeAccepted _ hno | edgeDropped _ hno => exact absurd (hno.symm.trans hrej) (by decide)

end Sys2Proof.Machine
end

section
/-! The waveform along an interleaving: no early TICK (R172, R176), finitely many TICKs at one clock value (R176), whole
periods (R177), and nothing while Disabled (R178). -/

namespace Sys2Proof.Machine

/-! ## Operations an interleaving cannot take -/

/-- An operation that is enabled in no state of a property which the interleaving keeps is not in it. -/
theorem not_mem_of_path {P : State → Prop} {j : Instr} {s t : State} {is : List Instr} (h : Path s is t)
    (heff : ∀ {i s t}, i ∈ is → P s → Effect s i t → P t) (hno : ∀ {s}, P s → enabled j s = false) (hs : P s) :
    j ∉ is := by
  induction h with
  | nil => exact List.not_mem_nil
  | @cons i is s t u htakes _ ih =>
    have hstep := htakes.effect
    have hji : j ≠ i := by
      rintro rfl
      exact absurd (hstep.enabled.symm.trans (hno hs)) (by decide)
    exact List.not_mem_cons_of_ne_of_not_mem hji
      (ih (fun hi => heff (List.mem_cons_of_mem _ hi)) (heff List.mem_cons_self hs hstep))

theorem path_cfg {s t : State} {is : List Instr} (h : Path s is t) : t.cfg = s.cfg :=
  path_keeps (P := fun u => u.cfg = s.cfg) h (fun _ hu heff => heff.cfg_eq.trans hu) rfl

/-! ## No TICK before the clock advances (R172, R176) -/

theorem State.tickDue_of_disabled {s : State} (h : s.wgEn = false) : s.tickDue = false := by
  rw [tickDue, h, Bool.false_and]

/-- R172: right after a RECONF no TICK is due, since a period is above the clock resolution. -/
theorem Effect.not_tickDue_of_reconf {s t : State} {fail : Bool} (hinv : BlockInv s)
    (heff : Effect s (.reconf fail) t) : t.tickDue = false := by
  cases heff with
  | reconfDisabled | reconfFailed => exact State.tickDue_of_disabled rfl
  | @reconfCreated p _ hspec =>
    have hperiod := specOf_period hinv.admitted hinv.modeBound hspec
    simp [State.tickDue, hinv.first_due_toNat p, hperiod]

/-- R176: a TICK that is not due becomes due by CLK_ADV alone. -/
theorem Effect.not_tickDue {i : Instr} {s t : State} (hclk : ∀ delta, i ≠ .clkAdv delta) (hinv : BlockInv s)
    (h : s.tickDue = false) (heff : Effect s i t) : t.tickDue = false := by
  cases i with
  | clkAdv delta => exact absurd rfl (hclk delta)
  | reset =>
    cases heff
    exact State.tickDue_of_disabled rfl
  | reconf fail => exact heff.not_tickDue_of_reconf hinv
  | tick => exact absurd (h.symm.trans heff.enabled) (by decide)
  | pinSet | busRd | busWr | edgeIsr | pop | advance | pulseOn | pulseOff => cases heff <;> exact h

/-- Settles O52: with no CLK_ADV no TICK becomes due. -/
theorem noTickBeforeTheClockAdvances : Obligations.NoTickBeforeTheClockAdvances := by
  intro s t u fail is hinv hreconf hpath hclk
  exact not_mem_of_path (P := fun w => BlockInv w ∧ w.tickDue = false) hpath
    (fun hi ⟨hw, hno⟩ heff => ⟨heff.blockInv hw, heff.not_tickDue (fun delta e => hclk delta (e ▸ hi)) hw hno⟩)
    (fun ⟨_, hno⟩ => hno) ⟨hreconf.effect.blockInv hinv, hreconf.effect.not_tickDue_of_reconf hinv⟩

/-! ## Nothing while Disabled (R178) -/

theorem Effect.wgEn_eq_false {i : Instr} {s t : State} (hreconf : ∀ fail, i ≠ .reconf fail) (h : s.wgEn = false)
    (heff : Effect s i t) : t.wgEn = false := by
  cases heff with
  | reset => rfl
  | reconfDisabled | reconfFailed | reconfCreated => exact absurd rfl (hreconf _)
  | _ => exact h

/-- Settles O55: only RECONF enables the generator, and a Disabled one has its phase, and so the LED, low. -/
theorem disabledNeverToggles : Obligations.DisabledNeverToggles := by
  intro s t is hinv hdis hpath hreconf
  have hkeep {i : Instr} {u v : State} (hi : i ∈ is) (hu : u.wgEn = false) (heff : Effect u i v) : v.wgEn = false :=
    heff.wgEn_eq_false (fun fail e => hreconf fail (e ▸ hi)) hu
  have hend : t.wgEn = false := path_keeps (P := fun u => u.wgEn = false) hpath hkeep hdis
  have hinvt := hinv.of_path hpath
  obtain ⟨-, -, hphase⟩ := hinvt.disabledNormal hend
  exact ⟨not_mem_of_path hpath hkeep State.tickDue_of_disabled hdis, hinvt.ledIsPhase.trans hphase, hend⟩

/-! ## Due times (R176, R177) -/

/-- R177: a running alarm keeps its period, and its due time moves by one period per TICK. -/
theorem Effect.alarm {i : Instr} {s t : State} (hinv : BlockInv s) (hen : s.wgEn = true) (hreset : i ≠ .reset)
    (hreconf : ∀ fail, i ≠ .reconf fail) (heff : Effect s i t) :
    t.wgEn = true ∧ t.wgPeriod = s.wgPeriod ∧
      t.wgDue.toNat = s.wgDue.toNat + [i].count .tick * s.wgPeriod.toNat := by
  cases heff with
  | reset => exact absurd rfl hreset
  | reconfDisabled | reconfFailed | reconfCreated => exact absurd rfl (hreconf _)
  | tick _ hdue => exact ⟨hen, rfl, by simpa using hinv.next_due_toNat hdue⟩
  | _ => exact ⟨hen, rfl, by simp⟩

/-- R177: with no RECONF and no RESET between, the alarm runs on, one period per TICK. -/
theorem path_alarm {s t : State} {is : List Instr} (h : Path s is t) (hinv : BlockInv s) (hen : s.wgEn = true)
    (hreset : Instr.reset ∉ is) (hreconf : ∀ fail, Instr.reconf fail ∉ is) :
    t.wgEn = true ∧ t.wgPeriod = s.wgPeriod ∧
      t.wgDue.toNat = s.wgDue.toNat + is.count .tick * s.wgPeriod.toNat := by
  induction h with
  | nil => exact ⟨hen, rfl, by simp⟩
  | @cons i is s t u htakes _ ih =>
    obtain ⟨hi, his⟩ := List.ne_and_not_mem_of_not_mem_cons hreset
    have hir fail := List.ne_and_not_mem_of_not_mem_cons (hreconf fail)
    have heff := htakes.effect
    obtain ⟨hen', hperiod, hdue⟩ := heff.alarm hinv hen hi.symm fun fail => (hir fail).1.symm
    obtain ⟨henu, hperiodu, hdueu⟩ := ih (heff.blockInv hinv) hen' his fun fail => (hir fail).2
    refine ⟨henu, hperiodu.trans hperiod, ?_⟩
    rw [hdueu, hdue, hperiod, Nat.add_assoc, ← Nat.add_mul, ← List.count_append, List.singleton_append]

/-- Settles O54: the due time along the interleaving, and TICK's enabling condition at its end. -/
theorem dueTimesAreWholePeriods : Obligations.DueTimesAreWholePeriods := by
  intro s t is hinv hen hpath hreset hreconf
  obtain ⟨hent, hperiod, hdue⟩ := path_alarm hpath hinv hen hreset hreconf
  refine ⟨hent, hperiod, hdue, ?_⟩
  rw [enabled_tick_iff, and_iff_right hent, hdue, path_cfg hpath]

/-- R176: the last of `k + 1` TICKs in a row was due, `k` periods after the first. -/
theorem replicate_tick_due {k : Nat} {s t : State} (hinv : BlockInv s)
    (h : Path s (List.replicate (k + 1) .tick) t) :
    s.wgEn = true ∧ s.wgDue.toNat + k * s.wgPeriod.toNat ≤ s.now.toNat + s.cfg.clockResUs.toNat := by
  induction k generalizing s with
  | zero =>
    obtain ⟨u, htakes, -⟩ := path_cons h
    cases htakes.effect with
    | tick hen hdue => exact ⟨hen, by simpa using hdue⟩
  | succ k ih =>
    obtain ⟨u, htakes, hpath⟩ := path_cons h
    have hu := ih (htakes.effect.blockInv hinv) hpath
    cases htakes.effect with
    | tick hen hdue =>
      have hnext := hinv.next_due_toNat hdue
      obtain ⟨-, hlast⟩ := hu
      dsimp only at hlast
      refine ⟨hen, ?_⟩
      rw [hnext] at hlast
      rwa [Nat.succ_mul, Nat.add_comm (k * _), ← Nat.add_assoc]

/-- Settles O53: the periods of all TICKs but the last fit before the clock resolution's end. -/
theorem ticksAtOneClockValueAreBounded : Obligations.TicksAtOneClockValueAreBounded := by
  intro s t k hinv hpath
  cases k with
  | zero => exact Nat.zero_le _
  | succ k =>
    obtain ⟨hen, hlast⟩ := replicate_tick_due hinv hpath
    have hperiod : 0 < s.wgPeriod.toNat := Nat.zero_lt_of_lt (hinv.periodAboveRes hen)
    have hk : k * s.wgPeriod.toNat ≤ s.now.toNat + s.cfg.clockResUs.toNat - s.wgDue.toNat :=
      Nat.le_sub_of_add_le' hlast
    exact Nat.succ_le_succ ((Nat.le_div_iff_mul_le hperiod).2 hk)

end Sys2Proof.Machine
end

section
/-! Orders and observations: EDGE_ISR and TICK commute (R226), no operation reads an event's fields or the history
(R157, R43), when only ENV can move (R259), and weak fairness (R24). -/

namespace Sys2Proof.Machine

open Host (Outcome)

/-! ## EDGE_ISR and TICK commute (R226) -/

theorem takes_edgeIsr_iff {s t : State} : Takes .edgeIsr s t ↔ enabled .edgeIsr s = true ∧ t = s.takeEdge := by
  constructor
  · rintro ⟨-, hen, h⟩
    exact ⟨hen, Outcome.next.inj (h.symm.trans (require_true hen s s.takeEdge))⟩
  · rintro ⟨hen, rfl⟩
    exact ⟨rfl, hen, require_true hen s s.takeEdge⟩

theorem takes_tick_iff {s t : State} : Takes .tick s t ↔ enabled .tick s = true ∧ t = s.toggle := by
  constructor
  · rintro ⟨-, hen, h⟩
    exact ⟨hen, Outcome.next.inj (h.symm.trans (require_true hen s s.toggle))⟩
  · rintro ⟨hen, rfl⟩
    exact ⟨rfl, hen, require_true hen s s.toggle⟩

/-- R121: EDGE_ISR writes nothing that TICK's condition reads. -/
theorem enabled_tick_takeEdge (s : State) : enabled .tick s.takeEdge = enabled .tick s := by
  rcases takeEdge_cases s with ⟨-, e⟩ | ⟨-, -, e⟩ | ⟨-, -, e⟩ <;> rw [e] <;>
    rfl

/-- R175: TICK writes nothing that EDGE_ISR's condition reads. -/
theorem enabled_edgeIsr_toggle (s : State) : enabled .edgeIsr s.toggle = enabled .edgeIsr s := rfl

theorem perm_append_swap (h : List Record) (a b : Record) : (h ++ [a] ++ [b]).Perm (h ++ [b] ++ [a]) := by
  rw [List.append_assoc, List.append_assoc]
  exact List.perm_append_comm.append_left h

/-- R226: the two orders write the same fields with the same values, and the same two records. -/
theorem toggle_takeEdge_comm (s : State) :
    { s.toggle.takeEdge with hist := s.takeEdge.toggle.hist } = s.takeEdge.toggle ∧
      s.toggle.takeEdge.hist.Perm s.takeEdge.toggle.hist := by
  cases hrej : s.filterRejects s.now with
  | true =>
    rw [takeEdge_of_rejects hrej, takeEdge_of_rejects (s := s.toggle) hrej]
    exact ⟨rfl, perm_append_swap _ _ _⟩
  | false =>
    rcases Nat.lt_or_ge s.fifo.length s.cfg.capacity with hroom | hfull
    · rw [takeEdge_of_room hrej hroom, takeEdge_of_room (s := s.toggle) hrej hroom]
      exact ⟨rfl, perm_append_swap _ _ _⟩
    · rw [takeEdge_of_full hrej hfull, takeEdge_of_full (s := s.toggle) hrej hfull]
      exact ⟨rfl, perm_append_swap _ _ _⟩

/-- Settles O56: each leaves the other's condition as it was, and the two orders differ in the records' order alone. -/
theorem edgeIsrCommutesWithTick : Obligations.EdgeIsrCommutesWithTick := by
  intro s
  obtain ⟨hsame, hperm⟩ := toggle_takeEdge_comm s
  simp only [takes_edgeIsr_iff, takes_tick_iff]
  refine ⟨fun hedge htick => ⟨⟨_, _, ⟨hedge, rfl⟩, ⟨?_, rfl⟩⟩, _, _, ⟨htick, rfl⟩, ⟨?_, rfl⟩⟩, ?_, ?_⟩
  · rw [enabled_tick_takeEdge, htick]
  · rw [enabled_edgeIsr_toggle, hedge]
  · rintro t u ⟨hedge, rfl⟩ ⟨htick, rfl⟩
    rw [enabled_tick_takeEdge] at htick
    exact ⟨_, _, ⟨htick, rfl⟩, ⟨(enabled_edgeIsr_toggle s).trans hedge, rfl⟩, hsame, hperm⟩
  · rintro t u ⟨htick, rfl⟩ ⟨hedge, rfl⟩
    rw [enabled_edgeIsr_toggle] at hedge
    refine ⟨_, _, ⟨hedge, rfl⟩, ⟨(enabled_tick_takeEdge s).trans htick, rfl⟩, ?_, hperm.symm⟩
    exact congrArg (fun u => { u with hist := s.toggle.takeEdge.hist }) hsame.symm

/-! ## Event fields and the history are not read (R157, R39, R43) -/

theorem State.blind_blind (s : State) : s.blind.blind = s.blind := by
  simp [blind, Function.comp_def]

theorem State.blind_fifo_of_cons (s : State) {ev : AcceptedEvent} {rest : List AcceptedEvent}
    (h : s.fifo = ev :: rest) : s.blind.fifo = ⟨0, false⟩ :: rest.map fun _ => ⟨0, false⟩ := by
  simp [blind, h]

theorem enabled_blind (i : Instr) (s : State) : enabled i s.blind = enabled i s := by
  cases i with
  | pop => exact Bool.eq_iff_iff.2 (by simp [enabled_pop_iff, State.blind])
  | _ => rfl

/-- R157: every effect is there in the blinded state too, and leads to a state that looks the same. -/
theorem Effect.blind {i : Instr} {s t : State} (heff : Effect s i t) :
    ∃ u, Effect s.blind i u ∧ u.blind = t.blind := by
  cases heff with
  | pinEdge hedge => exact ⟨_, .pinEdge hedge, by simp [State.blind, Function.comp_def]⟩
  | pinQuiet hedge => exact ⟨_, .pinQuiet hedge, by simp [State.blind, Function.comp_def]⟩
  | clkAdv hlimit => exact ⟨_, .clkAdv hlimit, by simp [State.blind, Function.comp_def]⟩
  | reset => exact ⟨_, .reset, rfl⟩
  | busRd => exact ⟨_, .busRd, by simp [State.blind, Function.comp_def]⟩
  | busWr => exact ⟨_, .busWr, by simp [State.blind, Function.comp_def]⟩
  | edgeRejected hpending hrej => exact ⟨_, .edgeRejected hpending hrej, by simp [State.blind, Function.comp_def]⟩
  | edgeAccepted hpending hrej hroom =>
    have hroom' : s.blind.fifo.length < s.blind.cfg.capacity := by simpa [State.blind] using hroom
    exact ⟨_, .edgeAccepted hpending hrej hroom', by simp [State.blind, Function.comp_def]⟩
  | edgeDropped hpending hrej hfull =>
    have hfull' : s.blind.cfg.capacity ≤ s.blind.fifo.length := by simpa [State.blind] using hfull
    exact ⟨_, .edgeDropped hpending hrej hfull', by simp [State.blind, Function.comp_def]⟩
  | pop htask hfifo =>
    exact ⟨_, .pop htask (s.blind_fifo_of_cons hfifo), by simp [State.blind]⟩
  | advance htask => exact ⟨_, .advance htask, by simp [State.blind, Function.comp_def]⟩
  | pulseOn htask => exact ⟨_, .pulseOn htask, by simp [State.blind, Function.comp_def]⟩
  | pulseOff htask helapsed => exact ⟨_, .pulseOff htask helapsed, by simp [State.blind, Function.comp_def]⟩
  | reconfDisabled htask hspec => exact ⟨_, .reconfDisabled htask hspec, by simp [State.blind, Function.comp_def]⟩
  | reconfFailed htask hspec => exact ⟨_, .reconfFailed htask hspec, by simp [State.blind, Function.comp_def]⟩
  | reconfCreated htask hspec => exact ⟨_, .reconfCreated htask hspec, by simp [State.blind, Function.comp_def]⟩
  | tick hen hdue => exact ⟨_, .tick hen hdue, by simp [State.blind, Function.comp_def]⟩

theorem exec_blind {i : Instr} {s t : State} (h : exec i s = .next t) :
    ∃ u, exec i s.blind = .next u ∧ u.blind = t.blind := by
  rcases exec_next h with heff | ⟨hoff, rfl⟩
  · obtain ⟨u, hu, hb⟩ := heff.blind
    exact ⟨u, hu.exec_eq, hb⟩
  · exact ⟨_, exec_of_not_enabled ((enabled_blind i t).trans hoff), t.blind_blind⟩

/-- Settles O57: both states answer what their common blinded state answers, and CLK_ADV's refusal reads the clock. -/
theorem eventFieldsAndHistoryAreNotRead : Obligations.EventFieldsAndHistoryAreNotRead := by
  intro i s s' hb
  have hnow : s'.now = s.now := by
    change s'.blind.now = s.blind.now
    rw [hb]
  refine ⟨?_, fun t ht => ?_, fun r hr => ?_⟩
  · rw [← enabled_blind, hb, enabled_blind]
  · rcases exec_outcome i s' with ⟨t', ht'⟩ | ⟨delta, rfl, hover, -⟩
    · obtain ⟨u, hu, hub⟩ := exec_blind ht
      obtain ⟨u', hu', hub'⟩ := exec_blind ht'
      rw [hb] at hu
      obtain rfl := Outcome.next.inj (hu.symm.trans hu')
      exact ⟨t', ht', hub.symm.trans hub'⟩
    · rw [hnow] at hover
      exact absurd (ht.symm.trans (execClkAdv_refused hover)) (by simp)
  · rcases exec_outcome i s with ⟨t, ht⟩ | ⟨delta, rfl, hover, hex⟩
    · exact absurd (ht.symm.trans hr) (by simp)
    · rw [← hr, hex, ← hnow]
      exact execClkAdv_refused (hnow ▸ hover)

/-! ## When only the environment moves (R259) -/

/-- R156, R259: the TASK agent has no enabled operation exactly at an empty channel and in a pulse that still has to
last. -/
theorem task_disabled_iff (s : State) :
    (∀ i : Instr, i.agent = .task → enabled i s = false) ↔
      (s.task = .pop ∧ s.fifo = []) ∨
        (s.task = .pulseHold ∧ s.now.toNat - s.pulseT0.toNat < s.cfg.pulseDurationUs.toNat) := by
  constructor
  · intro h
    cases htask : s.task with
    | pop =>
      have hoff := h .pop rfl
      rw [← Bool.not_eq_true, enabled_pop_iff] at hoff
      exact .inl ⟨rfl, by simpa [htask] using hoff⟩
    | advance => exact absurd ((enabled_advance_iff s).2 htask) (by simp [h .advance rfl])
    | pulseOn => exact absurd ((enabled_pulseOn_iff s).2 htask) (by simp [h .pulseOn rfl])
    | pulseHold =>
      have hoff := h .pulseOff rfl
      rw [← Bool.not_eq_true, enabled_pulseOff_iff] at hoff
      exact .inr ⟨rfl, by simpa [htask] using hoff⟩
    | reconf => exact absurd ((enabled_reconf_iff true s).2 htask) (by simp [h (.reconf true) rfl])
  · intro h i hi
    rw [← Bool.not_eq_true, enabled_task_iff hi]
    rcases h with ⟨htask, hempty⟩ | ⟨htask, hshort⟩
    · simp [htask, hempty]
    · simp [htask, hshort]

theorem edgeIsr_disabled_iff (s : State) : enabled .edgeIsr s = false ↔ s.irqPending = 0 := by
  rw [← Bool.not_eq_true, enabled_edgeIsr_iff, Nat.not_lt, Nat.le_zero]

theorem tick_disabled_iff (s : State) :
    enabled .tick s = false ↔ s.wgEn = false ∨ s.now.toNat + s.cfg.clockResUs.toNat < s.wgDue.toNat := by
  rw [← Bool.not_eq_true, enabled_tick_iff, not_and_or, Bool.not_eq_true, Nat.not_le]

/-- R23, R259: the block's agents are ISR, TMR and TASK, the first two with one operation each. -/
theorem onlyEnvEnabled_iff (s : State) :
    OnlyEnvEnabled s ↔ enabled .edgeIsr s = false ∧ enabled .tick s = false ∧
      ∀ i : Instr, i.agent = .task → enabled i s = false := by
  constructor
  · exact fun h => ⟨h .edgeIsr (by decide), h .tick (by decide), fun i hi => h i (by simp [hi])⟩
  · rintro ⟨hedge, htick, htask⟩ i hi
    cases i with
    | edgeIsr => exact hedge
    | tick => exact htick
    | pop | advance | pulseOn | pulseOff | reconf => exact htask _ rfl
    | pinSet | clkAdv | reset | busRd | busWr => exact absurd rfl hi

/-- Settles O59: agent by agent. -/
theorem whenOnlyTheEnvironmentMoves : Obligations.WhenOnlyTheEnvironmentMoves := by
  intro s
  rw [onlyEnvEnabled_iff, edgeIsr_disabled_iff, tick_disabled_iff, task_disabled_iff]

/-! ## A pending edge is serviced (R24, R222) -/

/-- R222: only EDGE_ISR and RESET take a pending invocation away. -/
theorem Effect.irqPending_pos {i : Instr} {s t : State} (hedge : i ≠ .edgeIsr) (hreset : i ≠ .reset)
    (h : 0 < s.irqPending) (heff : Effect s i t) : 0 < t.irqPending := by
  cases heff with
  | pinEdge =>
    dsimp only
    split <;> omega
  | reset => exact absurd rfl hreset
  | edgeRejected | edgeAccepted | edgeDropped => exact absurd rfl hedge
  | _ => exact h

theorem eq_edgeIsr_of_mnemonic {i : Instr} (h : i.mnemonic = .EDGE_ISR) : i = .edgeIsr := by
  cases i with
  | edgeIsr => rfl
  | _ => simp [Instr.mnemonic] at h

/-- Settles O60: an EDGE_ISR never taken would stay enabled, which weak fairness excludes. -/
theorem pendingEdgeIsServiced : Obligations.PendingEdgeIsServiced := by
  intro r n hfair hpending hreset
  by_contra hnever
  have hstays : ∀ k, n ≤ k → 0 < (r.state k).irqPending := by
    intro k hk
    induction k, hk using Nat.le_induction with
    | base => exact hpending
    | succ k hk ih =>
      exact (r.taken k).effect.irqPending_pos (fun e => hnever ⟨k, hk, e⟩) (hreset k hk) ih
  obtain ⟨k, hk, hop⟩ := hfair .edgeIsr n (by decide) fun k hk => (enabled_edgeIsr_iff _).2 (hstays k hk)
  exact hnever ⟨k, hk, eq_edgeIsr_of_mnemonic hop⟩

end Sys2Proof.Machine
end
